-- ==== Sys2Proof/Word.lean ====
section
/-! DEFINITION. The two word types of the block (00_scope.md section 6: "Byte = unsigned 8-bit
integer. Word = unsigned 16-bit integer."). -/

namespace Sys2Proof

/-- An unsigned 8-bit value (R3, DATA_WIDTH). -/
abbrev Byte := BitVec 8

/-- An unsigned 16-bit value (R3, ADDR_WIDTH). -/
abbrev Word := BitVec 16

end Sys2Proof
end

