-- ==== Sys2Proof/Machine/Bits.lean ====
section
/-! DEFINITION. Byte-order and bit-field helpers in the notation of 00_scope.md section 6. -/

namespace Sys2Proof.Machine

/-- `hi8(w)`: bits 15 to 8. -/
def hi8 (w : Word) : Byte := w.extractLsb' 8 8

/-- `lo8(w)`: bits 7 to 0. -/
def lo8 (w : Word) : Byte := w.extractLsb' 0 8

/-- `{h, l}`: the word `h * 256 + l`. -/
def wordOf (h l : Byte) : Word := h ++ l

/-- `zext_16(b)`. -/
def zext16 (b : Byte) : Word := b.zeroExtend 16

/-- `sext_16(b)`: the byte read as two's complement. -/
def sext16 (b : Byte) : Word := b.signExtend 16

/-- `page(a)`: `a & 0xFF00`. -/
def page (a : Word) : Word := a &&& 0xFF00

end Sys2Proof.Machine
end

