-- ==== Sys2Proof/Syntax.lean ====
section
/-! DEFINITION. Instructions as syntax: one constructor per mnemonic of spec/opcode_table.json, with
its operand form and operand bytes as arguments (30_encoding.md R70 to R76). Each mnemonic's operand
type has exactly the modes R74 gives that mnemonic, so a term names a row of the table. -/

namespace Sys2Proof

/-! ### The 13 modes of the evaluator (40_addressing_modes.md) -/

/-- The eight modes that yield the address of a data operand (R104 to R106, R108 to R110, R112, R113). -/
inductive MemOperand
  | zp (a : Byte)
  | zpX (a : Byte)
  | zpY (a : Byte)
  | abs (w : Word)
  | absX (w : Word)
  | absY (w : Word)
  | indX (a : Byte)
  | indY (a : Byte)
  deriving DecidableEq, Repr

/-- An operand of any of the 13 modes (D0's table in section 2 of 40_addressing_modes.md). -/
inductive Operand
  | implied
  | accumulator
  | immediate (v : Byte)
  | relative (offset : Byte)
  | indirect (w : Word)
  | memory (m : MemOperand)
  deriving DecidableEq, Repr

/-- Where a reading instruction takes its operand byte `M` from (R116). -/
inductive Source
  | imm (v : Byte)
  | mem (m : MemOperand)
  deriving DecidableEq, Repr

/-- What a shift or rotate works on (45_incdec_shift.md): A or a memory cell. -/
inductive Target
  | acc
  | mem (m : MemOperand)
  deriving DecidableEq, Repr

/-! ### The operand forms of each mnemonic (the rows of R74's table) -/

/-- LDA, AND, ORA, EOR, ADC, SBC, CMP. -/
inductive AluOperand
  | imm (v : Byte)
  | zp (a : Byte)
  | zpX (a : Byte)
  | abs (w : Word)
  | absX (w : Word)
  | absY (w : Word)
  | indX (a : Byte)
  | indY (a : Byte)
  deriving DecidableEq, Repr

/-- LDX. -/
inductive LdxOperand
  | imm (v : Byte)
  | zp (a : Byte)
  | zpY (a : Byte)
  | abs (w : Word)
  | absY (w : Word)
  deriving DecidableEq, Repr

/-- LDY. -/
inductive LdyOperand
  | imm (v : Byte)
  | zp (a : Byte)
  | zpX (a : Byte)
  | abs (w : Word)
  | absX (w : Word)
  deriving DecidableEq, Repr

/-- STA: there is no immediate form. -/
inductive StaOperand
  | zp (a : Byte)
  | zpX (a : Byte)
  | abs (w : Word)
  | absX (w : Word)
  | absY (w : Word)
  | indX (a : Byte)
  | indY (a : Byte)
  deriving DecidableEq, Repr

/-- STX. -/
inductive StxOperand
  | zp (a : Byte)
  | zpY (a : Byte)
  | abs (w : Word)
  deriving DecidableEq, Repr

/-- STY. -/
inductive StyOperand
  | zp (a : Byte)
  | zpX (a : Byte)
  | abs (w : Word)
  deriving DecidableEq, Repr

/-- CPX, CPY. -/
inductive CpOperand
  | imm (v : Byte)
  | zp (a : Byte)
  | abs (w : Word)
  deriving DecidableEq, Repr

/-- BIT. -/
inductive BitOperand
  | zp (a : Byte)
  | abs (w : Word)
  deriving DecidableEq, Repr

/-- INC, DEC. -/
inductive RmwOperand
  | zp (a : Byte)
  | zpX (a : Byte)
  | abs (w : Word)
  | absX (w : Word)
  deriving DecidableEq, Repr

/-- ASL, LSR, ROL, ROR. -/
inductive ShiftOperand
  | acc
  | zp (a : Byte)
  | zpX (a : Byte)
  | abs (w : Word)
  | absX (w : Word)
  deriving DecidableEq, Repr

/-- JMP. -/
inductive JmpOperand
  | abs (w : Word)
  | ind (w : Word)
  deriving DecidableEq, Repr

/-- An instruction, in the order of the table of 30_encoding.md R74. A branch carries its offset byte,
JSR its target, and an UnknownOpcode the opcode byte itself. -/
inductive Instr
  | lda (o : AluOperand)
  | ldx (o : LdxOperand)
  | ldy (o : LdyOperand)
  | sta (o : StaOperand)
  | stx (o : StxOperand)
  | sty (o : StyOperand)
  | tax
  | tay
  | txa
  | tya
  | tsx
  | txs
  | pha
  | pla
  | php
  | plp
  | and (o : AluOperand)
  | ora (o : AluOperand)
  | eor (o : AluOperand)
  | adc (o : AluOperand)
  | sbc (o : AluOperand)
  | cmp (o : AluOperand)
  | cpx (o : CpOperand)
  | cpy (o : CpOperand)
  | inc (o : RmwOperand)
  | dec (o : RmwOperand)
  | inx
  | dex
  | iny
  | dey
  | asl (o : ShiftOperand)
  | lsr (o : ShiftOperand)
  | rol (o : ShiftOperand)
  | ror (o : ShiftOperand)
  | bcc (offset : Byte)
  | bcs (offset : Byte)
  | beq (offset : Byte)
  | bne (offset : Byte)
  | bmi (offset : Byte)
  | bpl (offset : Byte)
  | bvc (offset : Byte)
  | bvs (offset : Byte)
  | jmp (o : JmpOperand)
  | jsr (target : Word)
  | rts
  | rti
  | brk
  | clc
  | sec
  | cli
  | sei
  | cld
  | sed
  | clv
  | bit (o : BitOperand)
  | nop
  | unknown (opcode : Byte)
  deriving DecidableEq, Repr

end Sys2Proof
end

