-- ==== Sys2Proof/Machine/Forms.lean ====
section
/-! DEFINITION. The operand forms of the mnemonics as forms of the shared evaluator, and a selector per
form that lists one value for each column of R74's table, so that a row of the table can be written as
one line (opcode bytes and cycle counts, Sys2Proof/Decode.lean). -/

namespace Sys2Proof

/-! ### Selectors: one value per mode, in the column order of R74 -/

def AluOperand.pick {α : Type} (imm zp zpX abs absX absY indX indY : α) : AluOperand → α
  | .imm _ => imm
  | .zp _ => zp
  | .zpX _ => zpX
  | .abs _ => abs
  | .absX _ => absX
  | .absY _ => absY
  | .indX _ => indX
  | .indY _ => indY

def LdxOperand.pick {α : Type} (imm zp zpY abs absY : α) : LdxOperand → α
  | .imm _ => imm
  | .zp _ => zp
  | .zpY _ => zpY
  | .abs _ => abs
  | .absY _ => absY

def LdyOperand.pick {α : Type} (imm zp zpX abs absX : α) : LdyOperand → α
  | .imm _ => imm
  | .zp _ => zp
  | .zpX _ => zpX
  | .abs _ => abs
  | .absX _ => absX

def StaOperand.pick {α : Type} (zp zpX abs absX absY indX indY : α) : StaOperand → α
  | .zp _ => zp
  | .zpX _ => zpX
  | .abs _ => abs
  | .absX _ => absX
  | .absY _ => absY
  | .indX _ => indX
  | .indY _ => indY

def StxOperand.pick {α : Type} (zp zpY abs : α) : StxOperand → α
  | .zp _ => zp
  | .zpY _ => zpY
  | .abs _ => abs

def StyOperand.pick {α : Type} (zp zpX abs : α) : StyOperand → α
  | .zp _ => zp
  | .zpX _ => zpX
  | .abs _ => abs

def CpOperand.pick {α : Type} (imm zp abs : α) : CpOperand → α
  | .imm _ => imm
  | .zp _ => zp
  | .abs _ => abs

def BitOperand.pick {α : Type} (zp abs : α) : BitOperand → α
  | .zp _ => zp
  | .abs _ => abs

def RmwOperand.pick {α : Type} (zp zpX abs absX : α) : RmwOperand → α
  | .zp _ => zp
  | .zpX _ => zpX
  | .abs _ => abs
  | .absX _ => absX

def ShiftOperand.pick {α : Type} (acc zp zpX abs absX : α) : ShiftOperand → α
  | .acc => acc
  | .zp _ => zp
  | .zpX _ => zpX
  | .abs _ => abs
  | .absX _ => absX

def JmpOperand.pick {α : Type} (abs ind : α) : JmpOperand → α
  | .abs _ => abs
  | .ind _ => ind

/-! ### What each form reads or writes (R116) -/

def AluOperand.source : AluOperand → Source
  | .imm v => .imm v
  | .zp a => .mem (.zp a)
  | .zpX a => .mem (.zpX a)
  | .abs w => .mem (.abs w)
  | .absX w => .mem (.absX w)
  | .absY w => .mem (.absY w)
  | .indX a => .mem (.indX a)
  | .indY a => .mem (.indY a)

def LdxOperand.source : LdxOperand → Source
  | .imm v => .imm v
  | .zp a => .mem (.zp a)
  | .zpY a => .mem (.zpY a)
  | .abs w => .mem (.abs w)
  | .absY w => .mem (.absY w)

def LdyOperand.source : LdyOperand → Source
  | .imm v => .imm v
  | .zp a => .mem (.zp a)
  | .zpX a => .mem (.zpX a)
  | .abs w => .mem (.abs w)
  | .absX w => .mem (.absX w)

def StaOperand.mem : StaOperand → MemOperand
  | .zp a => .zp a
  | .zpX a => .zpX a
  | .abs w => .abs w
  | .absX w => .absX w
  | .absY w => .absY w
  | .indX a => .indX a
  | .indY a => .indY a

def StxOperand.mem : StxOperand → MemOperand
  | .zp a => .zp a
  | .zpY a => .zpY a
  | .abs w => .abs w

def StyOperand.mem : StyOperand → MemOperand
  | .zp a => .zp a
  | .zpX a => .zpX a
  | .abs w => .abs w

def CpOperand.source : CpOperand → Source
  | .imm v => .imm v
  | .zp a => .mem (.zp a)
  | .abs w => .mem (.abs w)

def BitOperand.mem : BitOperand → MemOperand
  | .zp a => .zp a
  | .abs w => .abs w

def RmwOperand.mem : RmwOperand → MemOperand
  | .zp a => .zp a
  | .zpX a => .zpX a
  | .abs w => .abs w
  | .absX w => .absX w

def ShiftOperand.target : ShiftOperand → Target
  | .acc => .acc
  | .zp a => .mem (.zp a)
  | .zpX a => .mem (.zpX a)
  | .abs w => .mem (.abs w)
  | .absX w => .mem (.absX w)

/-! ### As operands of the 13-mode evaluator (R100) -/

def Source.operand : Source → Operand
  | .imm v => .immediate v
  | .mem m => .memory m

def Target.operand : Target → Operand
  | .acc => .accumulator
  | .mem m => .memory m

def JmpOperand.operand : JmpOperand → Operand
  | .abs w => .memory (.abs w)
  | .ind w => .indirect w

/-- The operand of an instruction, in one of the 13 modes. -/
def Instr.operand : Instr → Operand
  | .lda o => o.source.operand
  | .ldx o => o.source.operand
  | .ldy o => o.source.operand
  | .sta o => .memory o.mem
  | .stx o => .memory o.mem
  | .sty o => .memory o.mem
  | .tax => .implied
  | .tay => .implied
  | .txa => .implied
  | .tya => .implied
  | .tsx => .implied
  | .txs => .implied
  | .pha => .implied
  | .pla => .implied
  | .php => .implied
  | .plp => .implied
  | .and o => o.source.operand
  | .ora o => o.source.operand
  | .eor o => o.source.operand
  | .adc o => o.source.operand
  | .sbc o => o.source.operand
  | .cmp o => o.source.operand
  | .cpx o => o.source.operand
  | .cpy o => o.source.operand
  | .inc o => .memory o.mem
  | .dec o => .memory o.mem
  | .inx => .implied
  | .dex => .implied
  | .iny => .implied
  | .dey => .implied
  | .asl o => o.target.operand
  | .lsr o => o.target.operand
  | .rol o => o.target.operand
  | .ror o => o.target.operand
  | .bcc off => .relative off
  | .bcs off => .relative off
  | .beq off => .relative off
  | .bne off => .relative off
  | .bmi off => .relative off
  | .bpl off => .relative off
  | .bvc off => .relative off
  | .bvs off => .relative off
  | .jmp o => o.operand
  | .jsr w => .memory (.abs w)
  | .rts => .implied
  | .rti => .implied
  | .brk => .implied
  | .clc => .implied
  | .sec => .implied
  | .cli => .implied
  | .sei => .implied
  | .cld => .implied
  | .sed => .implied
  | .clv => .implied
  | .bit o => .memory o.mem
  | .nop => .implied
  | .unknown _ => .implied

end Sys2Proof
end

