-- ==== Sys2Proof/Decode.lean ====
section
/-! DEFINITION. The decode table (30_encoding.md R70 to R76) as a decoder, total on any bytes, and the
encoder written from the same rows of R74. The opcode byte alone selects the instruction and its length
(R71); the table binds every byte, so nothing but a byte list that ends too early is rejected. -/

namespace Sys2Proof

open Machine (wordOf lo8 hi8)

/-! ### Decoding -/

/-- The instruction whose opcode byte is `op`, given the two bytes that follow it; a shorter instruction
ignores the bytes it does not have. One line per row of R74, in its order; the 105 bytes without a row
are UnknownOpcodes (R75). A 16-bit operand has its low byte first (R76). -/
def decodeBytes (op b1 b2 : Byte) : Instr :=
  match op with
  | 0xA9 => .lda (.imm b1)
  | 0xA5 => .lda (.zp b1)
  | 0xB5 => .lda (.zpX b1)
  | 0xAD => .lda (.abs (wordOf b2 b1))
  | 0xBD => .lda (.absX (wordOf b2 b1))
  | 0xB9 => .lda (.absY (wordOf b2 b1))
  | 0xA1 => .lda (.indX b1)
  | 0xB1 => .lda (.indY b1)
  | 0xA2 => .ldx (.imm b1)
  | 0xA6 => .ldx (.zp b1)
  | 0xB6 => .ldx (.zpY b1)
  | 0xAE => .ldx (.abs (wordOf b2 b1))
  | 0xBE => .ldx (.absY (wordOf b2 b1))
  | 0xA0 => .ldy (.imm b1)
  | 0xA4 => .ldy (.zp b1)
  | 0xB4 => .ldy (.zpX b1)
  | 0xAC => .ldy (.abs (wordOf b2 b1))
  | 0xBC => .ldy (.absX (wordOf b2 b1))
  | 0x85 => .sta (.zp b1)
  | 0x95 => .sta (.zpX b1)
  | 0x8D => .sta (.abs (wordOf b2 b1))
  | 0x9D => .sta (.absX (wordOf b2 b1))
  | 0x99 => .sta (.absY (wordOf b2 b1))
  | 0x81 => .sta (.indX b1)
  | 0x91 => .sta (.indY b1)
  | 0x86 => .stx (.zp b1)
  | 0x96 => .stx (.zpY b1)
  | 0x8E => .stx (.abs (wordOf b2 b1))
  | 0x84 => .sty (.zp b1)
  | 0x94 => .sty (.zpX b1)
  | 0x8C => .sty (.abs (wordOf b2 b1))
  | 0xAA => .tax
  | 0xA8 => .tay
  | 0x8A => .txa
  | 0x98 => .tya
  | 0xBA => .tsx
  | 0x9A => .txs
  | 0x48 => .pha
  | 0x68 => .pla
  | 0x08 => .php
  | 0x28 => .plp
  | 0x29 => .and (.imm b1)
  | 0x25 => .and (.zp b1)
  | 0x35 => .and (.zpX b1)
  | 0x2D => .and (.abs (wordOf b2 b1))
  | 0x3D => .and (.absX (wordOf b2 b1))
  | 0x39 => .and (.absY (wordOf b2 b1))
  | 0x21 => .and (.indX b1)
  | 0x31 => .and (.indY b1)
  | 0x09 => .ora (.imm b1)
  | 0x05 => .ora (.zp b1)
  | 0x15 => .ora (.zpX b1)
  | 0x0D => .ora (.abs (wordOf b2 b1))
  | 0x1D => .ora (.absX (wordOf b2 b1))
  | 0x19 => .ora (.absY (wordOf b2 b1))
  | 0x01 => .ora (.indX b1)
  | 0x11 => .ora (.indY b1)
  | 0x49 => .eor (.imm b1)
  | 0x45 => .eor (.zp b1)
  | 0x55 => .eor (.zpX b1)
  | 0x4D => .eor (.abs (wordOf b2 b1))
  | 0x5D => .eor (.absX (wordOf b2 b1))
  | 0x59 => .eor (.absY (wordOf b2 b1))
  | 0x41 => .eor (.indX b1)
  | 0x51 => .eor (.indY b1)
  | 0x69 => .adc (.imm b1)
  | 0x65 => .adc (.zp b1)
  | 0x75 => .adc (.zpX b1)
  | 0x6D => .adc (.abs (wordOf b2 b1))
  | 0x7D => .adc (.absX (wordOf b2 b1))
  | 0x79 => .adc (.absY (wordOf b2 b1))
  | 0x61 => .adc (.indX b1)
  | 0x71 => .adc (.indY b1)
  | 0xE9 => .sbc (.imm b1)
  | 0xE5 => .sbc (.zp b1)
  | 0xF5 => .sbc (.zpX b1)
  | 0xED => .sbc (.abs (wordOf b2 b1))
  | 0xFD => .sbc (.absX (wordOf b2 b1))
  | 0xF9 => .sbc (.absY (wordOf b2 b1))
  | 0xE1 => .sbc (.indX b1)
  | 0xF1 => .sbc (.indY b1)
  | 0xC9 => .cmp (.imm b1)
  | 0xC5 => .cmp (.zp b1)
  | 0xD5 => .cmp (.zpX b1)
  | 0xCD => .cmp (.abs (wordOf b2 b1))
  | 0xDD => .cmp (.absX (wordOf b2 b1))
  | 0xD9 => .cmp (.absY (wordOf b2 b1))
  | 0xC1 => .cmp (.indX b1)
  | 0xD1 => .cmp (.indY b1)
  | 0xE0 => .cpx (.imm b1)
  | 0xE4 => .cpx (.zp b1)
  | 0xEC => .cpx (.abs (wordOf b2 b1))
  | 0xC0 => .cpy (.imm b1)
  | 0xC4 => .cpy (.zp b1)
  | 0xCC => .cpy (.abs (wordOf b2 b1))
  | 0xE6 => .inc (.zp b1)
  | 0xF6 => .inc (.zpX b1)
  | 0xEE => .inc (.abs (wordOf b2 b1))
  | 0xFE => .inc (.absX (wordOf b2 b1))
  | 0xC6 => .dec (.zp b1)
  | 0xD6 => .dec (.zpX b1)
  | 0xCE => .dec (.abs (wordOf b2 b1))
  | 0xDE => .dec (.absX (wordOf b2 b1))
  | 0xE8 => .inx
  | 0xCA => .dex
  | 0xC8 => .iny
  | 0x88 => .dey
  | 0x0A => .asl .acc
  | 0x06 => .asl (.zp b1)
  | 0x16 => .asl (.zpX b1)
  | 0x0E => .asl (.abs (wordOf b2 b1))
  | 0x1E => .asl (.absX (wordOf b2 b1))
  | 0x4A => .lsr .acc
  | 0x46 => .lsr (.zp b1)
  | 0x56 => .lsr (.zpX b1)
  | 0x4E => .lsr (.abs (wordOf b2 b1))
  | 0x5E => .lsr (.absX (wordOf b2 b1))
  | 0x2A => .rol .acc
  | 0x26 => .rol (.zp b1)
  | 0x36 => .rol (.zpX b1)
  | 0x2E => .rol (.abs (wordOf b2 b1))
  | 0x3E => .rol (.absX (wordOf b2 b1))
  | 0x6A => .ror .acc
  | 0x66 => .ror (.zp b1)
  | 0x76 => .ror (.zpX b1)
  | 0x6E => .ror (.abs (wordOf b2 b1))
  | 0x7E => .ror (.absX (wordOf b2 b1))
  | 0x90 => .bcc b1
  | 0xB0 => .bcs b1
  | 0xF0 => .beq b1
  | 0xD0 => .bne b1
  | 0x30 => .bmi b1
  | 0x10 => .bpl b1
  | 0x50 => .bvc b1
  | 0x70 => .bvs b1
  | 0x4C => .jmp (.abs (wordOf b2 b1))
  | 0x6C => .jmp (.ind (wordOf b2 b1))
  | 0x20 => .jsr (wordOf b2 b1)
  | 0x60 => .rts
  | 0x40 => .rti
  | 0x00 => .brk
  | 0x18 => .clc
  | 0x38 => .sec
  | 0x58 => .cli
  | 0x78 => .sei
  | 0xD8 => .cld
  | 0xF8 => .sed
  | 0xB8 => .clv
  | 0x24 => .bit (.zp b1)
  | 0x2C => .bit (.abs (wordOf b2 b1))
  | 0xEA => .nop
  | b => .unknown b

/-- Operand length in bytes (the "Bytes after opcode" column of section 2 of 40_addressing_modes.md). -/
def Operand.length : Operand → Nat
  | .implied => 0
  | .accumulator => 0
  | .immediate _ => 1
  | .relative _ => 1
  | .indirect _ => 2
  | .memory (.zp _) => 1
  | .memory (.zpX _) => 1
  | .memory (.zpY _) => 1
  | .memory (.abs _) => 2
  | .memory (.absX _) => 2
  | .memory (.absY _) => 2
  | .memory (.indX _) => 1
  | .memory (.indY _) => 1

/-- Length of the instruction in bytes: the opcode byte and its operand bytes (R70). BRK is one byte
here (R79). -/
def Instr.length (i : Instr) : Nat := 1 + i.operand.length

/-- Why a byte list is rejected. -/
inductive DecodeError
  /-- The list ends before the instruction does. Raised by `decode` only; the machine's memory has no end. -/
  | truncated
  deriving DecidableEq, Repr

/-- Read one instruction from the front of a byte list and return the bytes after it. -/
def decode : List Byte → Except DecodeError (Instr × List Byte)
  | [] => .error .truncated
  | op :: rest =>
    let i := decodeBytes op (rest.getD 0 0) (rest.getD 1 0)
    if i.operand.length ≤ rest.length then .ok (i, rest.drop i.operand.length) else .error .truncated

/-- The decoder on an instruction given as a number whose bit 0 is the least significant bit of the first
byte; every bit from `nbits` on is 0. -/
def decodeTableWord (nbits w : Nat) : Option Instr :=
  let v := w % 2 ^ nbits
  match decode [BitVec.ofNat 8 v, BitVec.ofNat 8 (v / 256), BitVec.ofNat 8 (v / 65536)] with
  | .ok (i, _) => some i
  | .error _ => none

/-! ### Encoding -/

/-- The opcode byte of an instruction: its row of R74, one byte per mode in the order of
Sys2Proof/Machine/Forms.lean. -/
def Instr.opcode : Instr → Byte
  | .lda o => o.pick 0xA9 0xA5 0xB5 0xAD 0xBD 0xB9 0xA1 0xB1
  | .ldx o => o.pick 0xA2 0xA6 0xB6 0xAE 0xBE
  | .ldy o => o.pick 0xA0 0xA4 0xB4 0xAC 0xBC
  | .sta o => o.pick 0x85 0x95 0x8D 0x9D 0x99 0x81 0x91
  | .stx o => o.pick 0x86 0x96 0x8E
  | .sty o => o.pick 0x84 0x94 0x8C
  | .tax => 0xAA
  | .tay => 0xA8
  | .txa => 0x8A
  | .tya => 0x98
  | .tsx => 0xBA
  | .txs => 0x9A
  | .pha => 0x48
  | .pla => 0x68
  | .php => 0x08
  | .plp => 0x28
  | .and o => o.pick 0x29 0x25 0x35 0x2D 0x3D 0x39 0x21 0x31
  | .ora o => o.pick 0x09 0x05 0x15 0x0D 0x1D 0x19 0x01 0x11
  | .eor o => o.pick 0x49 0x45 0x55 0x4D 0x5D 0x59 0x41 0x51
  | .adc o => o.pick 0x69 0x65 0x75 0x6D 0x7D 0x79 0x61 0x71
  | .sbc o => o.pick 0xE9 0xE5 0xF5 0xED 0xFD 0xF9 0xE1 0xF1
  | .cmp o => o.pick 0xC9 0xC5 0xD5 0xCD 0xDD 0xD9 0xC1 0xD1
  | .cpx o => o.pick 0xE0 0xE4 0xEC
  | .cpy o => o.pick 0xC0 0xC4 0xCC
  | .inc o => o.pick 0xE6 0xF6 0xEE 0xFE
  | .dec o => o.pick 0xC6 0xD6 0xCE 0xDE
  | .inx => 0xE8
  | .dex => 0xCA
  | .iny => 0xC8
  | .dey => 0x88
  | .asl o => o.pick 0x0A 0x06 0x16 0x0E 0x1E
  | .lsr o => o.pick 0x4A 0x46 0x56 0x4E 0x5E
  | .rol o => o.pick 0x2A 0x26 0x36 0x2E 0x3E
  | .ror o => o.pick 0x6A 0x66 0x76 0x6E 0x7E
  | .bcc _ => 0x90
  | .bcs _ => 0xB0
  | .beq _ => 0xF0
  | .bne _ => 0xD0
  | .bmi _ => 0x30
  | .bpl _ => 0x10
  | .bvc _ => 0x50
  | .bvs _ => 0x70
  | .jmp o => o.pick 0x4C 0x6C
  | .jsr _ => 0x20
  | .rts => 0x60
  | .rti => 0x40
  | .brk => 0x00
  | .clc => 0x18
  | .sec => 0x38
  | .cli => 0x58
  | .sei => 0x78
  | .cld => 0xD8
  | .sed => 0xF8
  | .clv => 0xB8
  | .bit o => o.pick 0x24 0x2C
  | .nop => 0xEA
  | .unknown b => b

/-- The operand bytes of an instruction, in ascending address order (R72, R76). -/
def Operand.bytes : Operand → List Byte
  | .implied => []
  | .accumulator => []
  | .immediate v => [v]
  | .relative off => [off]
  | .indirect w => [lo8 w, hi8 w]
  | .memory (.zp a) => [a]
  | .memory (.zpX a) => [a]
  | .memory (.zpY a) => [a]
  | .memory (.abs w) => [lo8 w, hi8 w]
  | .memory (.absX w) => [lo8 w, hi8 w]
  | .memory (.absY w) => [lo8 w, hi8 w]
  | .memory (.indX a) => [a]
  | .memory (.indY a) => [a]

/-- The bytes of an instruction, opcode first (R70). -/
def encode (i : Instr) : List Byte := i.opcode :: i.operand.bytes

/-! ### The cycle columns of the table -/

/-- Base cycle count (R74, R77; 2 for an UnknownOpcode, R75). -/
def baseCycles : Instr → Nat
  | .lda o => o.pick 2 3 4 4 4 4 6 5
  | .ldx o => o.pick 2 3 4 4 4
  | .ldy o => o.pick 2 3 4 4 4
  | .sta o => o.pick 3 4 4 5 5 6 6
  | .stx o => o.pick 3 4 4
  | .sty o => o.pick 3 4 4
  | .tax => 2
  | .tay => 2
  | .txa => 2
  | .tya => 2
  | .tsx => 2
  | .txs => 2
  | .pha => 3
  | .pla => 4
  | .php => 3
  | .plp => 4
  | .and o => o.pick 2 3 4 4 4 4 6 5
  | .ora o => o.pick 2 3 4 4 4 4 6 5
  | .eor o => o.pick 2 3 4 4 4 4 6 5
  | .adc o => o.pick 2 3 4 4 4 4 6 5
  | .sbc o => o.pick 2 3 4 4 4 4 6 5
  | .cmp o => o.pick 2 3 4 4 4 4 6 5
  | .cpx o => o.pick 2 3 4
  | .cpy o => o.pick 2 3 4
  | .inc o => o.pick 5 6 6 7
  | .dec o => o.pick 5 6 6 7
  | .inx => 2
  | .dex => 2
  | .iny => 2
  | .dey => 2
  | .asl o => o.pick 2 5 6 6 7
  | .lsr o => o.pick 2 5 6 6 7
  | .rol o => o.pick 2 5 6 6 7
  | .ror o => o.pick 2 5 6 6 7
  | .bcc _ => 2
  | .bcs _ => 2
  | .beq _ => 2
  | .bne _ => 2
  | .bmi _ => 2
  | .bpl _ => 2
  | .bvc _ => 2
  | .bvs _ => 2
  | .jmp o => o.pick 3 5
  | .jsr _ => 6
  | .rts => 6
  | .rti => 6
  | .brk => 7
  | .clc => 2
  | .sec => 2
  | .cli => 2
  | .sei => 2
  | .cld => 2
  | .sed => 2
  | .clv => 2
  | .bit o => o.pick 3 4
  | .nop => 2
  | .unknown _ => 2

/-- Whether the row carries R74's `+`: one more cycle if the indexed address crosses a page (R115). -/
def paysPageCross : Instr → Bool
  | .lda o => o.pick false false false false true true false true
  | .ldx o => o.pick false false false false true
  | .ldy o => o.pick false false false false true
  | .sta _ => false
  | .stx _ => false
  | .sty _ => false
  | .tax => false
  | .tay => false
  | .txa => false
  | .tya => false
  | .tsx => false
  | .txs => false
  | .pha => false
  | .pla => false
  | .php => false
  | .plp => false
  | .and o => o.pick false false false false true true false true
  | .ora o => o.pick false false false false true true false true
  | .eor o => o.pick false false false false true true false true
  | .adc o => o.pick false false false false true true false true
  | .sbc o => o.pick false false false false true true false true
  | .cmp o => o.pick false false false false true true false true
  | .cpx _ => false
  | .cpy _ => false
  | .inc _ => false
  | .dec _ => false
  | .inx => false
  | .dex => false
  | .iny => false
  | .dey => false
  | .asl _ => false
  | .lsr _ => false
  | .rol _ => false
  | .ror _ => false
  | .bcc _ => false
  | .bcs _ => false
  | .beq _ => false
  | .bne _ => false
  | .bmi _ => false
  | .bpl _ => false
  | .bvc _ => false
  | .bvs _ => false
  | .jmp _ => false
  | .jsr _ => false
  | .rts => false
  | .rti => false
  | .brk => false
  | .clc => false
  | .sec => false
  | .cli => false
  | .sei => false
  | .cld => false
  | .sed => false
  | .clv => false
  | .bit _ => false
  | .nop => false
  | .unknown _ => false

end Sys2Proof
end

