-- ==== Sys2Proof/Config.lean ====
section
/-! DEFINITION. The fixed parameters of this hardware (00_scope.md R3). The two parameters the spec
leaves open, `END_OF_RUN` and `INIT_MEM` (R4), are arguments of the definitions of
Sys2Proof/Safety.lean. There is no free value: no rule leaves an instruction's result open. -/

namespace Sys2Proof.Config

/-- `STACK_BASE` (R3): the stack page is 0x0100 to 0x01FF. -/
def stackBase : Word := 0x0100

/-- `ROM_BASE` (R3): where `load_rom` writes its image from. -/
def romBase : Word := 0x8000

/-- The number of cells of the ROM region, 0x8000 to 0xFFF9 (R3, R47). -/
def romCells : Nat := 32762

/-- `RESET_VECTOR` (R3): the address of its low byte. -/
def resetVector : Word := 0xFFFC

/-- `BRK_VECTOR` (R3): the address of its low byte. -/
def brkVector : Word := 0xFFFE

/-- `S_RESET` (R3). -/
def sReset : Byte := 0xFD

/-- `P_RESET` (R3): I = 1, U = 1, every other bit 0. -/
def pReset : Byte := 0x24

/-- `A_RESET`, `X_RESET`, `Y_RESET` (R3). -/
def axyReset : Byte := 0x00

/-- PC between power-on and the first tick: 0x0000 (R14, R32; the spec's decision D2, log entry 1). -/
def pcPowerOn : Word := 0x0000

/-- `MEM_RESET` (R3): what a cell reads as that nothing has written, 0x00 (R29, R41). -/
def unwrittenByte : Byte := 0x00

/-- `DEFAULT_PC` (R3). -/
def defaultPc : Word := 0x8000

end Sys2Proof.Config
end

