-- ==== Sys2Proof/Machine/State.lean ====
section
/-! DEFINITION. The state of the block (10_state.md) as plain data, the reasons a step could stop, and the
state at power-on (R32). -/

namespace Sys2Proof.Machine

/-- The memory (R29, R40): the cells that do not hold `Config.unwrittenByte`, by strictly rising address. -/
abbrev Memory := List Host.Cell

/-- The canonical form: addresses strictly rising and below 65 536, no cell equal to what an unlisted
address reads as. So two memories that read alike everywhere are the same list. -/
def Memory.wf : Memory → Bool
  | [] => true
  | (k, v) :: rest =>
    decide (k < 65536) && (v != Config.unwrittenByte) && rest.all (fun c => decide (k < c.1)) &&
      Memory.wf rest

/-- The bits of P (R15). -/
inductive Flag
  | C | Z | I | D | B | U | V | N
  deriving DecidableEq, Repr

/-- The record of R201's `note UnknownOpcode(addr, byte)`. -/
structure UnknownNote where
  addr : Word
  byte : Byte
  deriving DecidableEq, Repr

/-- Everything the spec gives the machine (10_state.md), and the notes of R201, which the spec calls no
state (R34) and which nothing reads (log entry 5). -/
structure State where
  /-- A (R10) -/
  regA : Byte
  /-- X (R11) -/
  regX : Byte
  /-- Y (R12) -/
  regY : Byte
  /-- S (R13) -/
  regS : Byte
  /-- PC (R14) -/
  pc : Word
  /-- P (R15) -/
  regP : Byte
  /-- `pending_cycles` (R27) -/
  pendingCycles : Nat
  /-- `reset_done` (R28) -/
  resetDone : Bool
  /-- the 65 536 cells (R29) -/
  mem : Memory
  /-- UnknownOpcode notes, newest first (R201; the model's own field) -/
  unknownNotes : List UnknownNote
  deriving DecidableEq, Repr

/-- Why a step would end in a fault. It has no constructor: "The core raises no trapping exception of any
kind" (R230), every access succeeds (R40, R49) and `tick` "never faults, never blocks and never refuses"
(R210). Nobody raises one; safe. -/
inductive Fault
  deriving DecidableEq, Repr

/-- Why a step would be refused. -/
inductive Refusal
  /-- An instruction without a meaning. No arm of `exec` raises it: every instruction has its meaning. It
  would be safe (the model stops where the hardware goes on). -/
  | notModelled (mnemonic : String)
  deriving DecidableEq, Repr

/-- Power-on (R250), the table of R32: the state in which the first tick performs the reset sequence. -/
def State.reset : State where
  regA := Config.axyReset
  regX := Config.axyReset
  regY := Config.axyReset
  regS := Config.sReset
  pc := Config.pcPowerOn
  regP := Config.pReset
  pendingCycles := 0
  resetDone := false
  mem := []
  unknownNotes := []

end Sys2Proof.Machine
end

