-- ==== Sys2Proof/Machine/Flags.lean ====
section
/-! DEFINITION. The status byte and every result-and-flag computation of the spec, as functions of bytes
(10_state.md R15 to R26; 44_arithmetic_compare.md; 45_incdec_shift.md). -/

namespace Sys2Proof.Machine

/-! ### The bits of P -/

/-- Bit position in P (R15). -/
def Flag.bit : Flag → Nat
  | .C => 0
  | .Z => 1
  | .I => 2
  | .D => 3
  | .B => 4
  | .U => 5
  | .V => 6
  | .N => 7

/-- `P.F`: one bit of P. -/
def flag (p : Byte) (f : Flag) : Bool := p.getLsbD f.bit

/-- `P.F <- b`: P with one bit replaced. -/
def setFlag (p : Byte) (f : Flag) (b : Bool) : Byte :=
  if b then p ||| (1#8 <<< f.bit) else p &&& ~~~(1#8 <<< f.bit)

/-- `SetZN(r)` (R24). -/
def setZN (p r : Byte) : Byte := setFlag (setFlag p .Z (r == 0)) .N (r.getLsbD 7)

/-- The byte PHP and BRK push (R26): B and U set. -/
def pushedStatus (p : Byte) : Byte := p ||| 0x30

/-- Live P from a popped byte, PLP and RTI (R25): B = 0, U = 1. -/
def pulledStatus (v : Byte) : Byte := (v &&& 0xCF) ||| 0x20

/-! ### Addition and subtraction -/

/-- The result byte, carry and overflow of an ADC or SBC. -/
structure Sum where
  result : Byte
  carry : Bool
  overflow : Bool
  deriving DecidableEq, Repr

/-- `((A ^ s) & (M ^ s) & 0x80) != 0` on the integer sum `s` (R150). -/
def sumOverflow (a m : Byte) (s : Nat) : Bool :=
  ((a.toNat ^^^ s) &&& (m.toNat ^^^ s) &&& 0x80) != 0

/-- The integer sum `A + M + C`, 0 to 511 (R150). -/
def sum9 (a m : Byte) (c : Bool) : Nat := a.toNat + m.toNat + c.toNat

/-- ADC in binary mode (R150). -/
def adcBinary (a m : Byte) (c : Bool) : Sum where
  result := BitVec.ofNat 8 (sum9 a m c)
  carry := decide (sum9 a m c > 0xFF)
  overflow := sumOverflow a m (sum9 a m c)

/-- SBC in binary mode (R152): ADC with M replaced by its complement. -/
def sbcBinary (a m : Byte) (c : Bool) : Sum := adcBinary a (~~~m) c

/-- One decimal digit of an addition (R151): 6 more when the digit sum is above 9. -/
def addDigit (sum : Nat) : Nat := if sum > 9 then sum + 6 else sum

/-- ADC in decimal mode (R151). V is that of the binary sum; for ill-formed operands the result is the
spec's own choice (log entry 4). -/
def adcDecimal (a m : Byte) (c : Bool) : Sum :=
  let lo := addDigit (a.toNat % 16 + m.toNat % 16 + c.toNat)
  let cl := if lo > 0x0F then 1 else 0
  let hi := addDigit (a.toNat / 16 + m.toNat / 16 + cl)
  { result := BitVec.ofNat 8 (hi % 16 * 16 + lo % 16)
    carry := decide (hi > 0x0F)
    overflow := sumOverflow a m (sum9 a m c) }

/-- One decimal digit of a subtraction (R153): 6 less when the digit difference is below 0. -/
def subDigit (diff : Int) : Int := if diff < 0 then diff - 6 else diff

/-- SBC in decimal mode (R153). `% 16` on Int is R153's `& 0x0F` on the two's-complement form. V is that of
the binary sum; for ill-formed operands the result is the spec's own choice (log entry 4). -/
def sbcDecimal (a m : Byte) (c : Bool) : Sum :=
  let b : Int := if c then 0 else 1
  let lo : Int := (a.toNat % 16 : Nat) - (m.toNat % 16 : Nat) - b
  let bl : Int := if lo < 0 then 1 else 0
  let hi : Int := (a.toNat / 16 : Nat) - (m.toNat / 16 : Nat) - bl
  { result := BitVec.ofNat 8 ((subDigit hi % 16).toNat * 16 + (subDigit lo % 16).toNat)
    carry := !decide (hi < 0)
    overflow := sumOverflow a (~~~m) (sum9 a (~~~m) c) }

/-- ADC: `P.D` selects binary or decimal mode (R150, R151). -/
def adcSum (p a m : Byte) : Sum :=
  if flag p .D then adcDecimal a m (flag p .C) else adcBinary a m (flag p .C)

/-- SBC: `P.D` selects binary or decimal mode (R152, R153). -/
def sbcSum (p a m : Byte) : Sum :=
  if flag p .D then sbcDecimal a m (flag p .C) else sbcBinary a m (flag p .C)

/-- P after an ADC or SBC: C, V, then Z and N from the byte written to A (R150 to R153). -/
def sumStatus (p : Byte) (r : Sum) : Byte :=
  setZN (setFlag (setFlag p .C r.carry) .V r.overflow) r.result

/-! ### Compare and bit test -/

/-- P after comparing a register `r` with `m` (R154 to R156): unsigned, no borrow in. -/
def compareStatus (p r m : Byte) : Byte :=
  setFlag (setFlag (setFlag p .C (decide (m.toNat ≤ r.toNat))) .Z (r == m)) .N ((r - m).getLsbD 7)

/-- P after BIT (R143): Z from `A & M`, N and V from M alone. -/
def bitStatus (p a m : Byte) : Byte :=
  setFlag (setFlag (setFlag p .Z ((a &&& m) == 0)) .N (m.getLsbD 7)) .V (m.getLsbD 6)

/-! ### Shifts and rotates: the result byte and the bit that goes to C -/

/-- A shift's result and the bit shifted out. -/
structure Shifted where
  result : Byte
  out : Bool
  deriving DecidableEq, Repr

/-- ASL (R166). -/
def aslByte (v : Byte) : Shifted := { result := v <<< 1, out := v.getLsbD 7 }

/-- LSR (R167). -/
def lsrByte (v : Byte) : Shifted := { result := v >>> 1, out := v.getLsbD 0 }

/-- ROL (R168). -/
def rolByte (c : Bool) (v : Byte) : Shifted :=
  { result := v <<< 1 ||| (if c then 0x01 else 0x00), out := v.getLsbD 7 }

/-- ROR (R169). -/
def rorByte (c : Bool) (v : Byte) : Shifted :=
  { result := v >>> 1 ||| (if c then 0x80 else 0x00), out := v.getLsbD 0 }

/-- P after a shift or rotate: C from the bit shifted out, Z and N from the result (R166 to R169). -/
def shiftStatus (p : Byte) (r : Shifted) : Byte := setZN (setFlag p .C r.out) r.result

end Sys2Proof.Machine
end

