-- ==== Sys2Proof/Machine/Ops.lean ====
section
/-! DEFINITION. The named operations over memory, registers and stack (20_memory.md), the software trap
(47_system_flags_nop.md R190, R191) and the reset sequence (70_reset_and_hazards.md R251). -/

namespace Sys2Proof.Machine

/-! ### The array -/

/-- The byte at a key: what the list holds, else `Config.unwrittenByte` (R41). -/
def cellRead : Memory → Nat → Byte
  | [], _ => Config.unwrittenByte
  | (k, v) :: rest, a => if a = k then v else cellRead rest a

/-- A cell in front of a list, left out when it holds what an unlisted address reads as. -/
def cellCons (a : Nat) (v : Byte) (m : Memory) : Memory :=
  if v = Config.unwrittenByte then m else (a, v) :: m

/-- The memory with the byte at one key replaced (R42), in canonical form. -/
def cellWrite : Memory → Nat → Byte → Memory
  | [], a, v => cellCons a v []
  | (k, w) :: rest, a, v =>
    if a < k then cellCons a v ((k, w) :: rest)
    else if a = k then cellCons a v rest
    else (k, w) :: cellWrite rest a v

/-! ### Byte and word access -/

/-- `MemRead(addr, 1)` (R41). -/
def State.read (s : State) (addr : Word) : Byte := cellRead s.mem addr.toNat

/-- `MemWrite(addr, 1, v)` (R42): any address, any region. -/
def State.write (s : State) (addr : Word) (v : Byte) : State :=
  { s with mem := cellWrite s.mem addr.toNat v }

/-- `MemRead(addr, 2)` (R43): little-endian, address modulo 65 536. -/
def State.readWord (s : State) (addr : Word) : Word := wordOf (s.read (addr + 1)) (s.read addr)

/-- `MemWrite(addr, 2, v)` (R44): low byte first. -/
def State.writeWord (s : State) (addr : Word) (v : Word) : State :=
  (s.write addr (lo8 v)).write (addr + 1) (hi8 v)

/-- `MemReadZP(zp, 2)` (R45): the high byte wraps inside page zero. -/
def State.readWordZP (s : State) (zp : Byte) : Word :=
  wordOf (s.read (zext16 (zp + 1))) (s.read (zext16 zp))

/-- `MemReadJmpInd(addr)` (R46): the high byte comes from the pointer's own page. -/
def State.readWordJmpInd (s : State) (addr : Word) : Word :=
  wordOf (s.read (page addr ||| ((addr + 1) &&& 0x00FF))) (s.read addr)

/-! ### Register writes -/

def State.setA (s : State) (v : Byte) : State := { s with regA := v }
def State.setX (s : State) (v : Byte) : State := { s with regX := v }
def State.setY (s : State) (v : Byte) : State := { s with regY := v }
def State.setS (s : State) (v : Byte) : State := { s with regS := v }
def State.setP (s : State) (v : Byte) : State := { s with regP := v }
def State.setPc (s : State) (a : Word) : State := { s with pc := a }
def State.setPending (s : State) (n : Nat) : State := { s with pendingCycles := n }

/-- One bit of P. -/
def State.flag (s : State) (f : Flag) : Bool := Machine.flag s.regP f

/-- `P.F <- b`. -/
def State.putFlag (s : State) (f : Flag) (b : Bool) : State := s.setP (setFlag s.regP f b)

/-- `SetZN(r)` on the state (R24). -/
def State.putZN (s : State) (r : Byte) : State := s.setP (setZN s.regP r)

/-! ### The stack (R56, R57, R63, R64) -/

/-- The address `0x0100 + S`. -/
def stackAddr (sp : Byte) : Word := Config.stackBase + zext16 sp

/-- `Push(v)` (R56): the write uses S before the decrement. -/
def State.push (s : State) (v : Byte) : State := (s.write (stackAddr s.regS) v).setS (s.regS - 1)

/-- The state after `Pop()` (R57): S incremented, the cell left as it is. -/
def State.popped (s : State) : State := s.setS (s.regS + 1)

/-- The byte `Pop()` returns (R57): the read uses S after the increment. -/
def State.top (s : State) : Byte := s.read (stackAddr (s.regS + 1))

/-- `PushWord(w)` (R63): high byte, then low byte. -/
def State.pushWord (s : State) (w : Word) : State := (s.push (hi8 w)).push (lo8 w)

/-- The state after `PopWord()` (R64). -/
def State.poppedWord (s : State) : State := s.popped.popped

/-- The word `PopWord()` returns (R64): low byte, then high byte. -/
def State.topWord (s : State) : Word := wordOf s.popped.top s.top

/-! ### The software trap and the return from it -/

/-- What the trap saves (R190), PC being opaddr + 1: the address opaddr + 2, high byte then low byte, and P
with B and U set. -/
def State.pushTrapFrame (s : State) : State := (s.pushWord (s.pc + 1)).push (pushedStatus s.regP)

/-- Taking the one trap of the block (R190, R234): save, set I, go to the word at 0xFFFE, which is read after
the pushes (R59). -/
def State.enterTrap (s : State) : State :=
  (s.pushTrapFrame.putFlag .I true).setPc (s.pushTrapFrame.readWord Config.brkVector)

/-- Returning from it (R191, R235): `Pop` P with B = 0 and U = 1, then `Pop` PC, low byte first, nothing
added. -/
def State.leaveTrap (s : State) : State :=
  (s.popped.poppedWord.setP (pulledStatus s.top)).setPc s.popped.topWord

/-- `note UnknownOpcode(addr, byte)` (R201). -/
def State.noteUnknown (s : State) (addr : Word) (b : Byte) : State :=
  { s with unknownNotes := { addr := addr, byte := b } :: s.unknownNotes }

/-! ### Reset -/

/-- The reset sequence (R251): no memory is written, `pending_cycles` is left as it is. -/
def State.resetSequence (s : State) : State :=
  { s with
    pc := s.readWord Config.resetVector
    regS := Config.sReset
    regP := Config.pReset
    regA := Config.axyReset
    regX := Config.axyReset
    regY := Config.axyReset
    resetDone := true }

end Sys2Proof.Machine
end

