-- ==== Sys2Proof/Machine/Operands.lean ====
section
/-! DEFINITION. The addressing-mode evaluator (40_addressing_modes.md). The operand bytes have been fetched
and PC already points at the next instruction, so `opaddr + 2` of a two-byte instruction is PC. -/

namespace Sys2Proof.Machine

/-! ### Effective addresses of the eight data modes -/

/-- The address before the index is added, for the modes that can cross a page (R109, R110, R113). -/
def indexBase (s : State) : MemOperand → Option Word
  | .zp _ => none
  | .zpX _ => none
  | .zpY _ => none
  | .abs _ => none
  | .absX w => some w
  | .absY w => some w
  | .indX _ => none
  | .indY a => some (s.readWordZP a)

/-- The effective address `ea` (R104 to R106, R108 to R110, R112, R113). -/
def effectiveAddress (s : State) : MemOperand → Word
  | .zp a => zext16 a
  | .zpX a => zext16 (a + s.regX)
  | .zpY a => zext16 (a + s.regY)
  | .abs w => w
  | .absX w => w + zext16 s.regX
  | .absY w => w + zext16 s.regY
  | .indX a => s.readWordZP (a + s.regX)
  | .indY a => s.readWordZP a + zext16 s.regY

/-- `crossed(base, ea)` (R114). -/
def crossed (base ea : Word) : Nat := if page base = page ea then 0 else 1

/-- Whether a data mode crosses a page in this state. -/
def memCrossed (s : State) (m : MemOperand) : Nat :=
  match indexBase s m with
  | none => 0
  | some base => crossed base (effectiveAddress s m)

/-- The target of a branch (R107): the next instruction's address plus the signed offset. -/
def relativeTarget (s : State) (offset : Byte) : Word := s.pc + sext16 offset

/-- The target of JMP (R108, R111, R180). -/
def jumpTarget (s : State) : JmpOperand → Word
  | .abs w => w
  | .ind w => s.readWordJmpInd w

/-! ### The evaluator (R100) -/

/-- The effective operand. -/
inductive Effective
  | none
  | accumulator
  | immediate (v : Byte)
  | address (ea : Word)
  deriving DecidableEq, Repr

/-- What the evaluator returns: effective operand, operand length, page crossing. -/
structure Evaluated where
  effective : Effective
  length : Nat
  crossing : Nat
  deriving DecidableEq, Repr

/-- The effective operand of each of the 13 modes. -/
def effective (s : State) : Operand → Effective
  | .implied => .none
  | .accumulator => .accumulator
  | .immediate v => .immediate v
  | .relative off => .address (relativeTarget s off)
  | .indirect w => .address (s.readWordJmpInd w)
  | .memory m => .address (effectiveAddress s m)

/-- Whether the mode crosses a page (the column "May cross page"; 0 for Relative, R107). -/
def pageCrossing (s : State) : Operand → Nat
  | .implied => 0
  | .accumulator => 0
  | .immediate _ => 0
  | .relative _ => 0
  | .indirect _ => 0
  | .memory m => memCrossed s m

/-- The 13-mode evaluator (R100): writes no state. -/
def evaluate (s : State) (o : Operand) : Evaluated where
  effective := effective s o
  length := o.length
  crossing := pageCrossing s o

/-! ### Operand access (R116) -/

/-- The operand byte `M` of a reading instruction: the immediate, or the cell at `ea`. -/
def sourceByte (s : State) : Source → Byte
  | .imm v => v
  | .mem m => s.read (effectiveAddress s m)

/-- The operand value of a shift: A, or the cell at `ea`. -/
def targetByte (s : State) : Target → Byte
  | .acc => s.regA
  | .mem m => s.read (effectiveAddress s m)

/-- `write(r)` of a shift: A, or the cell at `ea`. -/
def State.writeTarget (s : State) (t : Target) (r : Byte) : State :=
  match t with
  | .acc => s.setA r
  | .mem m => s.write (effectiveAddress s m) r

/-! ### The cycle budget (R213) -/

/-- The page-cross penalty of an instruction: the evaluator's crossing where the row pays it (R115). -/
def pagePenalty (i : Instr) (s : State) : Nat :=
  if paysPageCross i then (evaluate s i.operand).crossing else 0

/-- End of a fetch tick (R212 step 5, R213): `s` is the state the instruction ran in, `extra` what its
handler returned, `t` the state its effects left. -/
def conclude (i : Instr) (s : State) (extra : Nat) (t : State) :
    Host.Outcome State Fault Refusal :=
  .next (t.setPending (baseCycles i + pagePenalty i s + extra - 1))

end Sys2Proof.Machine
end

