-- ==== Sys2Proof/Machine/Arithmetic.lean ====
section
/-! DEFINITION. Arithmetic and compare (44_arithmetic_compare.md). -/

namespace Sys2Proof.Machine

/-- `A` and the four flags after an ADC or SBC. -/
def State.loadSum (s : State) (r : Sum) : State := (s.setA r.result).setP (sumStatus s.regP r)

/-- ADC (R150; R151 when D = 1). -/
def execAdc (o : AluOperand) (s : State) : Host.Outcome State Fault Refusal :=
  conclude (.adc o) s 0 (s.loadSum (adcSum s.regP s.regA (sourceByte s o.source)))

/-- SBC (R152; R153 when D = 1). -/
def execSbc (o : AluOperand) (s : State) : Host.Outcome State Fault Refusal :=
  conclude (.sbc o) s 0 (s.loadSum (sbcSum s.regP s.regA (sourceByte s o.source)))

/-- CMP (R154): C, Z, N from `A - M`; nothing is stored. -/
def execCmp (o : AluOperand) (s : State) : Host.Outcome State Fault Refusal :=
  conclude (.cmp o) s 0 (s.setP (compareStatus s.regP s.regA (sourceByte s o.source)))

/-- CPX (R155): C, Z, N from `X - M`; nothing is stored. -/
def execCpx (o : CpOperand) (s : State) : Host.Outcome State Fault Refusal :=
  conclude (.cpx o) s 0 (s.setP (compareStatus s.regP s.regX (sourceByte s o.source)))

/-- CPY (R156): C, Z, N from `Y - M`; nothing is stored. -/
def execCpy (o : CpOperand) (s : State) : Host.Outcome State Fault Refusal :=
  conclude (.cpy o) s 0 (s.setP (compareStatus s.regP s.regY (sourceByte s o.source)))

end Sys2Proof.Machine
end

