-- ==== Sys2Proof/Machine/BranchJump.lean ====
section
/-! DEFINITION. Branches, jumps and subroutine calls (46_branch_jump.md). -/

namespace Sys2Proof.Machine

/-- The branch handler (R170). PC is opaddr + 2. -/
def branch (i : Instr) (cond : Bool) (offset : Byte) (s : State) : Host.Outcome State Fault Refusal :=
  if cond then
    conclude i s (1 + crossed s.pc (relativeTarget s offset)) (s.setPc (relativeTarget s offset))
  else conclude i s 0 s

/-- BCC (R171): branch when C = 0. -/
def execBcc (offset : Byte) (s : State) : Host.Outcome State Fault Refusal :=
  branch (.bcc offset) (!s.flag .C) offset s

/-- BCS (R172): branch when C = 1. -/
def execBcs (offset : Byte) (s : State) : Host.Outcome State Fault Refusal :=
  branch (.bcs offset) (s.flag .C) offset s

/-- BEQ (R173): branch when Z = 1. -/
def execBeq (offset : Byte) (s : State) : Host.Outcome State Fault Refusal :=
  branch (.beq offset) (s.flag .Z) offset s

/-- BNE (R174): branch when Z = 0. -/
def execBne (offset : Byte) (s : State) : Host.Outcome State Fault Refusal :=
  branch (.bne offset) (!s.flag .Z) offset s

/-- BMI (R175): branch when N = 1. -/
def execBmi (offset : Byte) (s : State) : Host.Outcome State Fault Refusal :=
  branch (.bmi offset) (s.flag .N) offset s

/-- BPL (R176): branch when N = 0. -/
def execBpl (offset : Byte) (s : State) : Host.Outcome State Fault Refusal :=
  branch (.bpl offset) (!s.flag .N) offset s

/-- BVC (R177): branch when V = 0. -/
def execBvc (offset : Byte) (s : State) : Host.Outcome State Fault Refusal :=
  branch (.bvc offset) (!s.flag .V) offset s

/-- BVS (R178): branch when V = 1. -/
def execBvs (offset : Byte) (s : State) : Host.Outcome State Fault Refusal :=
  branch (.bvs offset) (s.flag .V) offset s

/-- JMP (R180): `PC <- ea`. -/
def execJmp (o : JmpOperand) (s : State) : Host.Outcome State Fault Refusal :=
  conclude (.jmp o) s 0 (s.setPc (jumpTarget s o))

/-- JSR (R181): push the address of its last byte, high then low, and jump. -/
def execJsr (target : Word) (s : State) : Host.Outcome State Fault Refusal :=
  conclude (.jsr target) s 0 ((s.pushWord (s.pc - 1)).setPc target)

/-- RTS (R182): `l = Pop(); h = Pop(); PC <- {h, l} + 1`. -/
def execRts (s : State) : Host.Outcome State Fault Refusal :=
  conclude .rts s 0 (s.poppedWord.setPc (s.topWord + 1))

end Sys2Proof.Machine
end

