-- ==== Sys2Proof/Machine/IncDecShift.lean ====
section
/-! DEFINITION. Increments, decrements, shifts and rotates (45_incdec_shift.md). -/

namespace Sys2Proof.Machine

/-- A read-modify-write of one cell: one read, one write, then SetZN (R160, R161). -/
def State.modify (s : State) (ea : Word) (f : Byte → Byte) : State :=
  (s.write ea (f (s.read ea))).putZN (f (s.read ea))

/-- INC (R160): `r = (MemRead(ea, 1) + 1) mod 256; MemWrite(ea, 1, r); SetZN(r)`. -/
def execInc (o : RmwOperand) (s : State) : Host.Outcome State Fault Refusal :=
  conclude (.inc o) s 0 (s.modify (effectiveAddress s o.mem) (· + 1))

/-- DEC (R161): `r = (MemRead(ea, 1) - 1) mod 256; MemWrite(ea, 1, r); SetZN(r)`. -/
def execDec (o : RmwOperand) (s : State) : Host.Outcome State Fault Refusal :=
  conclude (.dec o) s 0 (s.modify (effectiveAddress s o.mem) (· - 1))

/-- INX (R162): `r = (X + 1) mod 256; X <- r; SetZN(r)`. -/
def execInx (s : State) : Host.Outcome State Fault Refusal :=
  conclude .inx s 0 ((s.setX (s.regX + 1)).putZN (s.regX + 1))

/-- DEX (R163): `r = (X - 1) mod 256; X <- r; SetZN(r)`. -/
def execDex (s : State) : Host.Outcome State Fault Refusal :=
  conclude .dex s 0 ((s.setX (s.regX - 1)).putZN (s.regX - 1))

/-- INY (R164): `r = (Y + 1) mod 256; Y <- r; SetZN(r)`. -/
def execIny (s : State) : Host.Outcome State Fault Refusal :=
  conclude .iny s 0 ((s.setY (s.regY + 1)).putZN (s.regY + 1))

/-- DEY (R165): `r = (Y - 1) mod 256; Y <- r; SetZN(r)`. -/
def execDey (s : State) : Host.Outcome State Fault Refusal :=
  conclude .dey s 0 ((s.setY (s.regY - 1)).putZN (s.regY - 1))

/-- A shift or rotate: `write(r)`, then C, Z and N (R166 to R169). -/
def State.shift (s : State) (t : Target) (r : Shifted) : State :=
  (s.writeTarget t r.result).setP (shiftStatus s.regP r)

/-- ASL (R166): `P.C <- v[7]; r = (v << 1) & 0xFF`. -/
def execAsl (o : ShiftOperand) (s : State) : Host.Outcome State Fault Refusal :=
  conclude (.asl o) s 0 (s.shift o.target (aslByte (targetByte s o.target)))

/-- LSR (R167): `P.C <- v[0]; r = v >> 1`. -/
def execLsr (o : ShiftOperand) (s : State) : Host.Outcome State Fault Refusal :=
  conclude (.lsr o) s 0 (s.shift o.target (lsrByte (targetByte s o.target)))

/-- ROL (R168): `P.C <- v[7]; r = ((v << 1) & 0xFF) | c` with c the old C. -/
def execRol (o : ShiftOperand) (s : State) : Host.Outcome State Fault Refusal :=
  conclude (.rol o) s 0 (s.shift o.target (rolByte (s.flag .C) (targetByte s o.target)))

/-- ROR (R169): `P.C <- v[0]; r = (v >> 1) | (c << 7)` with c the old C. -/
def execRor (o : ShiftOperand) (s : State) : Host.Outcome State Fault Refusal :=
  conclude (.ror o) s 0 (s.shift o.target (rorByte (s.flag .C) (targetByte s o.target)))

end Sys2Proof.Machine
end

