-- ==== Sys2Proof/Machine/LoadStore.lean ====
section
/-! DEFINITION. Loads and stores (41_load_store.md). -/

namespace Sys2Proof.Machine

/-- LDA (R120): `A <- M; SetZN(M)`. -/
def execLda (o : AluOperand) (s : State) : Host.Outcome State Fault Refusal :=
  conclude (.lda o) s 0 ((s.setA (sourceByte s o.source)).putZN (sourceByte s o.source))

/-- LDX (R121): `X <- M; SetZN(M)`. -/
def execLdx (o : LdxOperand) (s : State) : Host.Outcome State Fault Refusal :=
  conclude (.ldx o) s 0 ((s.setX (sourceByte s o.source)).putZN (sourceByte s o.source))

/-- LDY (R122): `Y <- M; SetZN(M)`. -/
def execLdy (o : LdyOperand) (s : State) : Host.Outcome State Fault Refusal :=
  conclude (.ldy o) s 0 ((s.setY (sourceByte s o.source)).putZN (sourceByte s o.source))

/-- STA (R123): `MemWrite(ea, 1, A)`; no flag. -/
def execSta (o : StaOperand) (s : State) : Host.Outcome State Fault Refusal :=
  conclude (.sta o) s 0 (s.write (effectiveAddress s o.mem) s.regA)

/-- STX (R124): `MemWrite(ea, 1, X)`; no flag. -/
def execStx (o : StxOperand) (s : State) : Host.Outcome State Fault Refusal :=
  conclude (.stx o) s 0 (s.write (effectiveAddress s o.mem) s.regX)

/-- STY (R125): `MemWrite(ea, 1, Y)`; no flag. -/
def execSty (o : StyOperand) (s : State) : Host.Outcome State Fault Refusal :=
  conclude (.sty o) s 0 (s.write (effectiveAddress s o.mem) s.regY)

end Sys2Proof.Machine
end

