-- ==== Sys2Proof/Machine/Logical.lean ====
section
/-! DEFINITION. Logical instructions and bit test (43_logical_bit.md). -/

namespace Sys2Proof.Machine

/-- `A <- r; SetZN(r)`. -/
def State.loadA (s : State) (r : Byte) : State := (s.setA r).putZN r

/-- AND (R140): `r = A & M; A <- r; SetZN(r)`. -/
def execAnd (o : AluOperand) (s : State) : Host.Outcome State Fault Refusal :=
  conclude (.and o) s 0 (s.loadA (s.regA &&& sourceByte s o.source))

/-- ORA (R141): `r = A | M; A <- r; SetZN(r)`. -/
def execOra (o : AluOperand) (s : State) : Host.Outcome State Fault Refusal :=
  conclude (.ora o) s 0 (s.loadA (s.regA ||| sourceByte s o.source))

/-- EOR (R142): `r = A ^ M; A <- r; SetZN(r)`. -/
def execEor (o : AluOperand) (s : State) : Host.Outcome State Fault Refusal :=
  conclude (.eor o) s 0 (s.loadA (s.regA ^^^ sourceByte s o.source))

/-- BIT (R143): Z from `A & M`, N and V from bits 7 and 6 of M. -/
def execBit (o : BitOperand) (s : State) : Host.Outcome State Fault Refusal :=
  conclude (.bit o) s 0 (s.setP (bitStatus s.regP s.regA (s.read (effectiveAddress s o.mem))))

end Sys2Proof.Machine
end

