-- ==== Sys2Proof/Machine/System.lean ====
section
/-! DEFINITION. System instructions, flag instructions, NOP and unknown opcodes (47_system_flags_nop.md). -/

namespace Sys2Proof.Machine

/-- BRK (R190): takes the trap. -/
def execBrk (s : State) : Host.Outcome State Fault Refusal :=
  conclude .brk s 0 s.enterTrap

/-- RTI (R191): returns from it. -/
def execRti (s : State) : Host.Outcome State Fault Refusal :=
  conclude .rti s 0 s.leaveTrap

/-- CLC (R192): `P.C <- 0`. -/
def execClc (s : State) : Host.Outcome State Fault Refusal :=
  conclude .clc s 0 (s.putFlag .C false)

/-- SEC (R193): `P.C <- 1`. -/
def execSec (s : State) : Host.Outcome State Fault Refusal :=
  conclude .sec s 0 (s.putFlag .C true)

/-- CLI (R194): `P.I <- 0`. -/
def execCli (s : State) : Host.Outcome State Fault Refusal :=
  conclude .cli s 0 (s.putFlag .I false)

/-- SEI (R195): `P.I <- 1`. -/
def execSei (s : State) : Host.Outcome State Fault Refusal :=
  conclude .sei s 0 (s.putFlag .I true)

/-- CLD (R196): `P.D <- 0`. -/
def execCld (s : State) : Host.Outcome State Fault Refusal :=
  conclude .cld s 0 (s.putFlag .D false)

/-- SED (R197): `P.D <- 1`. -/
def execSed (s : State) : Host.Outcome State Fault Refusal :=
  conclude .sed s 0 (s.putFlag .D true)

/-- CLV (R198): `P.V <- 0`. -/
def execClv (s : State) : Host.Outcome State Fault Refusal :=
  conclude .clv s 0 (s.putFlag .V false)

/-- NOP (R199): nothing. -/
def execNop (s : State) : Host.Outcome State Fault Refusal :=
  conclude .nop s 0 s

/-- UnknownOpcode (R201): only the note, whose address is that of the opcode byte. -/
def execUnknown (opcode : Byte) (s : State) : Host.Outcome State Fault Refusal :=
  conclude (.unknown opcode) s 0 (s.noteUnknown (s.pc - 1) opcode)

end Sys2Proof.Machine
end

