-- ==== Sys2Proof/Machine/TransferStack.lean ====
section
/-! DEFINITION. Register transfers and stack instructions (42_transfer_stack.md). -/

namespace Sys2Proof.Machine

/-- TAX (R130): `X <- A; SetZN(A)`. -/
def execTax (s : State) : Host.Outcome State Fault Refusal :=
  conclude .tax s 0 ((s.setX s.regA).putZN s.regA)

/-- TAY (R131): `Y <- A; SetZN(A)`. -/
def execTay (s : State) : Host.Outcome State Fault Refusal :=
  conclude .tay s 0 ((s.setY s.regA).putZN s.regA)

/-- TXA (R132): `A <- X; SetZN(X)`. -/
def execTxa (s : State) : Host.Outcome State Fault Refusal :=
  conclude .txa s 0 ((s.setA s.regX).putZN s.regX)

/-- TYA (R133): `A <- Y; SetZN(Y)`. -/
def execTya (s : State) : Host.Outcome State Fault Refusal :=
  conclude .tya s 0 ((s.setA s.regY).putZN s.regY)

/-- TSX (R134): `X <- S; SetZN(S)`. -/
def execTsx (s : State) : Host.Outcome State Fault Refusal :=
  conclude .tsx s 0 ((s.setX s.regS).putZN s.regS)

/-- TXS (R135): `S <- X`; no flag. -/
def execTxs (s : State) : Host.Outcome State Fault Refusal :=
  conclude .txs s 0 (s.setS s.regX)

/-- PHA (R136): `Push(A)`. -/
def execPha (s : State) : Host.Outcome State Fault Refusal :=
  conclude .pha s 0 (s.push s.regA)

/-- PLA (R137): `v = Pop(); A <- v; SetZN(v)`. -/
def execPla (s : State) : Host.Outcome State Fault Refusal :=
  conclude .pla s 0 ((s.popped.setA s.top).putZN s.top)

/-- PHP (R138): `Push(P | 0x30)`; live P is unchanged. -/
def execPhp (s : State) : Host.Outcome State Fault Refusal :=
  conclude .php s 0 (s.push (pushedStatus s.regP))

/-- PLP (R139): `v = Pop(); P <- (v & 0xCF) | 0x20`. -/
def execPlp (s : State) : Host.Outcome State Fault Refusal :=
  conclude .plp s 0 (s.popped.setP (pulledStatus s.top))

end Sys2Proof.Machine
end

