-- ==== Sys2Proof/Machine/Fetch.lean ====
section
/-! DEFINITION. Fetching (50_clock_and_step.md R212): the instruction at PC, the advance past its bytes, the
idle step, and the placing of an instruction where the next fetch finds it. -/

namespace Sys2Proof.Machine

/-- The instruction at an address: the opcode byte and the bytes after it, addresses modulo 65 536
(R70, R100). -/
def instrAt (s : State) (a : Word) : Instr := decodeBytes (s.read a) (s.read (a + 1)) (s.read (a + 2))

/-- The instruction at PC. -/
def fetchInstr (s : State) : Instr := instrAt s s.pc

/-- PC advanced past the opcode byte and the operand bytes (R212). -/
def State.pastInstr (s : State) (i : Instr) : State := s.setPc (s.pc + BitVec.ofNat 16 i.length)

/-- The reset sequence if it has not yet occurred (R210, R251). -/
def State.afterReset (s : State) : State := if s.resetDone then s else s.resetSequence

/-- The idle step (R211). -/
def State.idle (s : State) : State := s.setPending (s.pendingCycles - 1)

/-- Whether three bytes from this address overlap the reset vector. -/
def overlapsResetVector (a : Word) : Bool := a == 0xFFFA || a == 0xFFFB || a == 0xFFFC || a == 0xFFFD

/-- `s` with three bytes stored from an address on. -/
def State.writeThree (s : State) (a : Word) (b0 b1 b2 : Byte) : State :=
  ((s.write a b0).write (a + 1) b1).write (a + 2) b2

/-- `s` with an instruction stored where the next tick fetches: at PC, or before the reset sequence at the
address the reset vector holds. If the instruction would overlap the reset vector itself, the vector is
first set to 0x0000 and the instruction stored there. No idle tick is left. -/
def State.placeNext (s : State) (b0 b1 b2 : Byte) : State :=
  let s := s.setPending 0
  if s.resetDone then s.writeThree s.pc b0 b1 b2
  else if overlapsResetVector (s.readWord Config.resetVector) then
    (s.writeWord Config.resetVector 0).writeThree 0 b0 b1 b2
  else s.writeThree (s.readWord Config.resetVector) b0 b1 b2

end Sys2Proof.Machine
end

