-- ==== Sys2Proof/Machine/Step.lean ====
section
/-! DEFINITION. The one step of the core, `tick` (50_clock_and_step.md R210 to R213). -/

namespace Sys2Proof.Machine

/-- The fetch step (R212): decode at PC, advance PC, run the handler, load the cycle budget. -/
def fetchStep (s : State) : Host.Outcome State Fault Refusal :=
  exec (fetchInstr s) (s.pastInstr (fetchInstr s))

/-- `tick` (R210): the reset sequence if it has not occurred, then the idle step or the fetch step. -/
def step (s : State) : Host.Outcome State Fault Refusal :=
  let s := s.afterReset
  if 0 < s.pendingCycles then .next s.idle else fetchStep s

/-- `s` with the instruction whose bits are `w` stored where the next tick fetches it. -/
def State.withFetchWord (s : State) (nbits w : Nat) : State :=
  let v := w % 2 ^ nbits
  s.placeNext (BitVec.ofNat 8 v) (BitVec.ofNat 8 (v / 256)) (BitVec.ofNat 8 (v / 65536))

end Sys2Proof.Machine
end

