-- ==== Sys2Proof/Machine/Disassembler.lean ====
section
/-! DEFINITION. The disassembler (80_host_interface.md R277, R278; operand syntax 30_encoding.md R90). It reads
memory and the decode table and writes no state. -/

namespace Sys2Proof.Machine

/-- An upper-case hexadecimal digit (R90). -/
def hexChar (n : Nat) : Char := Char.ofNat (if n < 10 then 48 + n else 55 + n)

/-- Two digits. -/
def hexByte (b : Byte) : String := String.ofList [hexChar (b.toNat / 16), hexChar (b.toNat % 16)]

/-- Four digits. -/
def hexWord (w : Word) : String := hexByte (hi8 w) ++ hexByte (lo8 w)

/-- The mnemonic as the disassembler prints it; `???` for an UnknownOpcode (R277). -/
def mnemonicText : Instr → String
  | .lda _ => "LDA"
  | .ldx _ => "LDX"
  | .ldy _ => "LDY"
  | .sta _ => "STA"
  | .stx _ => "STX"
  | .sty _ => "STY"
  | .tax => "TAX"
  | .tay => "TAY"
  | .txa => "TXA"
  | .tya => "TYA"
  | .tsx => "TSX"
  | .txs => "TXS"
  | .pha => "PHA"
  | .pla => "PLA"
  | .php => "PHP"
  | .plp => "PLP"
  | .and _ => "AND"
  | .ora _ => "ORA"
  | .eor _ => "EOR"
  | .adc _ => "ADC"
  | .sbc _ => "SBC"
  | .cmp _ => "CMP"
  | .cpx _ => "CPX"
  | .cpy _ => "CPY"
  | .inc _ => "INC"
  | .dec _ => "DEC"
  | .inx => "INX"
  | .dex => "DEX"
  | .iny => "INY"
  | .dey => "DEY"
  | .asl _ => "ASL"
  | .lsr _ => "LSR"
  | .rol _ => "ROL"
  | .ror _ => "ROR"
  | .bcc _ => "BCC"
  | .bcs _ => "BCS"
  | .beq _ => "BEQ"
  | .bne _ => "BNE"
  | .bmi _ => "BMI"
  | .bpl _ => "BPL"
  | .bvc _ => "BVC"
  | .bvs _ => "BVS"
  | .jmp _ => "JMP"
  | .jsr _ => "JSR"
  | .rts => "RTS"
  | .rti => "RTI"
  | .brk => "BRK"
  | .clc => "CLC"
  | .sec => "SEC"
  | .cli => "CLI"
  | .sei => "SEI"
  | .cld => "CLD"
  | .sed => "SED"
  | .clv => "CLV"
  | .bit _ => "BIT"
  | .nop => "NOP"
  | .unknown _ => "???"

/-- The operand text of each mode (R90), for an instruction at `a`; empty where the mode has none. -/
def operandText (a : Word) : Operand → String
  | .implied => ""
  | .accumulator => "A"
  | .immediate v => "#$" ++ hexByte v
  | .relative off => "$" ++ hexWord (a + 2 + sext16 off)
  | .indirect w => "($" ++ hexWord w ++ ")"
  | .memory (.zp z) => "$" ++ hexByte z
  | .memory (.zpX z) => "$" ++ hexByte z ++ ",X"
  | .memory (.zpY z) => "$" ++ hexByte z ++ ",Y"
  | .memory (.abs w) => "$" ++ hexWord w
  | .memory (.absX w) => "$" ++ hexWord w ++ ",X"
  | .memory (.absY w) => "$" ++ hexWord w ++ ",Y"
  | .memory (.indX z) => "($" ++ hexByte z ++ ",X)"
  | .memory (.indY z) => "($" ++ hexByte z ++ "),Y"

/-- Mnemonic and operand, one space between them where there is an operand. -/
def instrText (a : Word) (i : Instr) : String :=
  match i.operand with
  | .implied => mnemonicText i
  | o => mnemonicText i ++ " " ++ operandText a o

/-- The instruction's bytes in memory, one space between them. -/
def bytesText (s : State) (a : Word) : Nat → String
  | 0 => ""
  | 1 => hexByte (s.read a)
  | n + 2 => hexByte (s.read a) ++ " " ++ bytesText s (a + 1) (n + 1)

/-- One line, `AAAA  BB [BB [BB]]  MNEM OPERAND` (R277). -/
def lineAt (s : State) (a : Word) : String :=
  hexWord a ++ "  " ++ bytesText s a (instrAt s a).length ++ "  " ++ instrText a (instrAt s a)

/-- The lines of `n` instructions from an address on, in the order of the walk; the walk advances by 1 +
operand length, addresses modulo 0x10000 (R277, R278). -/
def walk (s : State) : Nat → Word → List (Word × String)
  | 0, _ => []
  | n + 1, a => (a, lineAt s a) :: walk s n (a + BitVec.ofNat 16 (instrAt s a).length)

/-- A mapping with one line added; a later line for the same address replaces an earlier one (R278). -/
def putLine : List (Word × String) → Word × String → List (Word × String)
  | [], e => [e]
  | d :: rest, e => if d.1 = e.1 then e :: rest else d :: putLine rest e

/-- `get_disassembly_range(start, n)` (R277): the mapping from address to line. DESIGN CHOICE, safe (log entry
12): R270 gives n as an integer and says nothing of a negative one; here n is a natural number, so a call
with a negative n does not exist. -/
def getDisassemblyRange (s : State) (start : Word) (n : Nat) : List (Word × String) :=
  (walk s n start).foldl putLine []

end Sys2Proof.Machine
end

