-- ==== Sys2Proof/Machine/HostPort.lean ====
section
/-! DEFINITION. What the host can do to the block and see of it (80_host_interface.md R270 to R275): power-on,
`load_rom` and the observation ports. `tick_clock` is `step`; `get_disassembly_range` is in
Sys2Proof/Machine/Disassembler.lean. None of these is a step of the core; the host calls them between
ticks (R274). -/

namespace Sys2Proof.Machine

/-! ### Power-on and `load_rom` -/

/-- `create_processor` (R271): power-on, and a no-op once the processor exists. -/
def createProcessor : Option State → State
  | none => State.reset
  | some s => s

/-- Why `load_rom` fails (R272, R273). The host sees it; the core does not. -/
inductive LoadError
  /-- `InvalidHexInput`: no digit, an odd number of digits, or a character that is no hex digit. -/
  | invalidHexInput
  /-- More than the 32 762 bytes of the ROM region. -/
  | imageTooLong
  deriving DecidableEq, Repr

/-- The value of a hex digit, upper or lower case (R272). -/
def hexDigit (c : Char) : Option Nat :=
  if 48 ≤ c.toNat ∧ c.toNat ≤ 57 then some (c.toNat - 48)
  else if 65 ≤ c.toNat ∧ c.toNat ≤ 70 then some (c.toNat - 55)
  else if 97 ≤ c.toNat ∧ c.toNat ≤ 102 then some (c.toNat - 87)
  else none

/-- Pairs of digits, first pair first, each pair high digit first (R272). -/
def hexPairs : List Char → Option (List Byte)
  | [] => some []
  | [_] => none
  | h :: l :: rest =>
    match hexDigit h, hexDigit l, hexPairs rest with
    | some hv, some lv, some bs => some (BitVec.ofNat 8 (hv * 16 + lv) :: bs)
    | _, _, _ => none

/-- The image in the string: whitespace removed, at least one pair (R272; which characters are whitespace is
log entry 6). -/
def parseImage (text : String) : Option (List Byte) :=
  match text.toList.filter (fun c => !c.isWhitespace) with
  | [] => none
  | d :: ds => hexPairs (d :: ds)

/-- Bytes written at ascending addresses. -/
def State.writeBytes (s : State) (a : Word) : List Byte → State
  | [] => s
  | b :: rest => (s.write a b).writeBytes (a + 1) rest

/-- `load_rom(s, a)` (R272): the image from 0x8000 up, then the start address into the reset vector. It may
be called before or after the first tick; PC does not move (R252). -/
def loadRom (text : String) (start : Word) (s : State) : Except LoadError State :=
  match parseImage text with
  | none => .error .invalidHexInput
  | some bytes =>
    if Config.romCells < bytes.length then .error .imageTooLong
    else .ok ((s.writeBytes Config.romBase bytes).writeWord Config.resetVector start)

/-! ### Regions (R47) -/

/-- The named regions of R47's table. -/
inductive Region
  | zeroPage
  | stack
  | generalRam
  | secondaryStorage
  | resetVector
  | brkVector
  deriving DecidableEq, Repr

/-- A row of the region table; the two cells 0xFFFA and 0xFFFB have no name (90_conflicts.md C1). -/
structure RegionRow where
  name : Option Region
  first : Word
  last : Word
  deriving DecidableEq, Repr

/-- The region table: a constant that changes the behaviour of no access (R47). -/
def regionTable : List RegionRow :=
  [ { name := some .zeroPage, first := 0x0000, last := 0x00FF },
    { name := some .stack, first := 0x0100, last := 0x01FF },
    { name := some .generalRam, first := 0x0200, last := 0x7FFF },
    { name := some .secondaryStorage, first := 0x8000, last := 0xFFF9 },
    { name := none, first := 0xFFFA, last := 0xFFFB },
    { name := some .resetVector, first := 0xFFFC, last := 0xFFFD },
    { name := some .brkVector, first := 0xFFFE, last := 0xFFFF } ]

/-! ### Observation (R270, R275): every port reads the state and changes none -/

/-- The bytes of `n` cells from an address on, in address order. -/
def bytesFrom (s : State) (a : Word) (n : Nat) : List Byte :=
  (List.range n).map fun k => s.read (a + BitVec.ofNat 16 k)

/-- `get_ram`: 0x0200 to 0x7FFF. -/
def getRam (s : State) : List Byte := bytesFrom s 0x0200 32256

/-- `get_rom`: 0x8000 to 0xFFF9. -/
def getRom (s : State) : List Byte := bytesFrom s Config.romBase Config.romCells

/-- `get_stack`: 0x0100 to 0x01FF. -/
def getStack (s : State) : List Byte := bytesFrom s Config.stackBase 256

/-- `get_processor_status`: P as an integer. -/
def getProcessorStatus (s : State) : Nat := s.regP.toNat

/-- `get_storage_layout`: each named region with its first and last address. -/
def getStorageLayout : List (Region × Word × Word) :=
  regionTable.filterMap fun r => r.name.map fun n => (n, r.first, r.last)

/-- `get_current_program_counter`. -/
def getCurrentProgramCounter (s : State) : Word := s.pc

/-- `get_default_program_counter`: the constant 0x8000. -/
def getDefaultProgramCounter : Word := Config.defaultPc

end Sys2Proof.Machine
end

