-- ==== Sys2Proof/Safety.lean ====
section
/-! DEFINITION. What counts as a good state, a launch and the end of a run, in the terms claims use, and the
vocabulary of frames (what an instruction leaves unchanged). -/

namespace Sys2Proof.Safety

open Sys2Proof Sys2Proof.Machine

/-! ### The invariant (10_state.md R31, R27, R28) -/

/-- What holds at power-on and after every tick: live P has B = 0 and U = 1, the cycle budget is at most 6,
no idle tick is pending before the reset sequence, and memory is in its canonical form. That registers
stay in their ranges is their type. -/
structure Inv (s : State) : Prop where
  breakClear : s.flag .B = false
  unusedSet : s.flag .U = true
  budget : s.pendingCycles ≤ 6
  unreset : s.resetDone = false → s.pendingCycles = 0
  memory : s.mem.wf = true

/-- READY (R215): reset done and no cycle pending, so the next tick fetches. -/
def Ready (s : State) : Prop := s.resetDone = true ∧ s.pendingCycles = 0

/-! ### Launch and end of a run: the two parameters of R4 -/

/-- A launch state (glossary of 00_scope.md): power-on, with a memory the parameter `INIT_MEM` admits. -/
def Launch (initMem : Memory → Prop) (s : State) : Prop :=
  ∃ m : Memory, m.wf = true ∧ initMem m ∧ s = { State.reset with mem := m }

/-- The default of `INIT_MEM` (92_eei_decisions.md D17): zero outside the ROM region and the reset vector. -/
def LoadedMemory (m : Memory) : Prop :=
  ∀ a : Word, ¬ (0x8000 ≤ a ∧ a ≤ 0xFFF9) → a ≠ 0xFFFC → a ≠ 0xFFFD →
    cellRead m a.toNat = Config.unwrittenByte

/-- The state after `k` ticks is `t` and the parameter `END_OF_RUN` first holds there (R217). -/
def EndsAfter (endOfRun : State → Prop) (k : Nat) (s t : State) : Prop :=
  core.run k s = .next t ∧ endOfRun t ∧ ∀ j u, j < k → core.run j s = .next u → ¬ endOfRun u

/-- A run is safe when every tick of it answers a next state. -/
def SafeFor (k : Nat) (s : State) : Prop := ∀ j, j ≤ k → ∃ t, core.run j s = .next t

/-! ### Frames -/

/-- The four byte registers besides P (R10 to R13, R33). -/
inductive Reg
  | A | X | Y | S
  deriving DecidableEq, Repr

/-- The value of a byte register. -/
def regOf (s : State) : Reg → Byte
  | .A => s.regA
  | .X => s.regX
  | .Y => s.regY
  | .S => s.regS

/-- From `s` to `t` nothing changed but the listed registers, flags and memory cells; PC and the cycle budget
may differ. -/
structure Frame (regs : List Reg) (flags : List Flag) (cells : List Word) (s t : State) : Prop where
  regs : ∀ r, r ∉ regs → regOf t r = regOf s r
  flags : ∀ f, f ∉ flags → t.flag f = s.flag f
  cells : ∀ a : Word, a ∉ cells → t.read a = s.read a
  resetDone : t.resetDone = s.resetDone
  unknownNotes : t.unknownNotes = s.unknownNotes

/-- `SetZN(r)` as a fact about the flags of `t` (R24). -/
def ZNFrom (r : Byte) (t : State) : Prop :=
  t.flag .Z = decide (r.toNat = 0) ∧ t.flag .N = decide (128 ≤ r.toNat)

/-- The instruction cost `n` cycles (R213): its fetch tick and `pending_cycles` more. -/
def Costs (n : Nat) (t : State) : Prop := t.pendingCycles + 1 = n

/-- The encoding of an instruction: its opcode byte and its length in bytes (the encodings line of each
instruction rule). -/
def Encoded (i : Instr) (opcode : Byte) (length : Nat) : Prop :=
  (encode i).head? = some opcode ∧ (encode i).length = length

/-- What a shift or rotate left: the result at its target and nothing else but the listed flags. -/
def Wrote (s t : State) (target : Target) (r : Byte) (flags : List Flag) : Prop :=
  match target with
  | .acc => t.regA = r ∧ Frame [.A] flags [] s t
  | .mem m => t.read (effectiveAddress s m) = r ∧ Frame [] flags [effectiveAddress s m] s t

/-! ### Who writes what, over all instructions -/

/-- The flags each instruction may write (R35). -/
def flagWriters : Instr → List Flag
  | .lda _ => [.Z, .N]
  | .ldx _ => [.Z, .N]
  | .ldy _ => [.Z, .N]
  | .sta _ => []
  | .stx _ => []
  | .sty _ => []
  | .tax => [.Z, .N]
  | .tay => [.Z, .N]
  | .txa => [.Z, .N]
  | .tya => [.Z, .N]
  | .tsx => [.Z, .N]
  | .txs => []
  | .pha => []
  | .pla => [.Z, .N]
  | .php => []
  | .plp => [.C, .Z, .I, .D, .B, .U, .V, .N]
  | .and _ => [.Z, .N]
  | .ora _ => [.Z, .N]
  | .eor _ => [.Z, .N]
  | .adc _ => [.C, .Z, .V, .N]
  | .sbc _ => [.C, .Z, .V, .N]
  | .cmp _ => [.C, .Z, .N]
  | .cpx _ => [.C, .Z, .N]
  | .cpy _ => [.C, .Z, .N]
  | .inc _ => [.Z, .N]
  | .dec _ => [.Z, .N]
  | .inx => [.Z, .N]
  | .dex => [.Z, .N]
  | .iny => [.Z, .N]
  | .dey => [.Z, .N]
  | .asl _ => [.C, .Z, .N]
  | .lsr _ => [.C, .Z, .N]
  | .rol _ => [.C, .Z, .N]
  | .ror _ => [.C, .Z, .N]
  | .bcc _ => []
  | .bcs _ => []
  | .beq _ => []
  | .bne _ => []
  | .bmi _ => []
  | .bpl _ => []
  | .bvc _ => []
  | .bvs _ => []
  | .jmp _ => []
  | .jsr _ => []
  | .rts => []
  | .rti => [.C, .Z, .I, .D, .B, .U, .V, .N]
  | .brk => [.I]
  | .clc => [.C]
  | .sec => [.C]
  | .cli => [.I]
  | .sei => [.I]
  | .cld => [.D]
  | .sed => [.D]
  | .clv => [.V]
  | .bit _ => [.Z, .V, .N]
  | .nop => []
  | .unknown _ => []

/-- The byte registers each instruction may write (R10 to R13). -/
def registerWriters : Instr → List Reg
  | .lda _ => [.A]
  | .ldx _ => [.X]
  | .ldy _ => [.Y]
  | .sta _ => []
  | .stx _ => []
  | .sty _ => []
  | .tax => [.X]
  | .tay => [.Y]
  | .txa => [.A]
  | .tya => [.A]
  | .tsx => [.X]
  | .txs => [.S]
  | .pha => [.S]
  | .pla => [.A, .S]
  | .php => [.S]
  | .plp => [.S]
  | .and _ => [.A]
  | .ora _ => [.A]
  | .eor _ => [.A]
  | .adc _ => [.A]
  | .sbc _ => [.A]
  | .cmp _ => []
  | .cpx _ => []
  | .cpy _ => []
  | .inc _ => []
  | .dec _ => []
  | .inx => [.X]
  | .dex => [.X]
  | .iny => [.Y]
  | .dey => [.Y]
  | .asl o => match o.target with | .acc => [.A] | .mem _ => []
  | .lsr o => match o.target with | .acc => [.A] | .mem _ => []
  | .rol o => match o.target with | .acc => [.A] | .mem _ => []
  | .ror o => match o.target with | .acc => [.A] | .mem _ => []
  | .bcc _ => []
  | .bcs _ => []
  | .beq _ => []
  | .bne _ => []
  | .bmi _ => []
  | .bpl _ => []
  | .bvc _ => []
  | .bvs _ => []
  | .jmp _ => []
  | .jsr _ => [.S]
  | .rts => [.S]
  | .rti => [.S]
  | .brk => [.S]
  | .clc => []
  | .sec => []
  | .cli => []
  | .sei => []
  | .cld => []
  | .sed => []
  | .clv => []
  | .bit _ => []
  | .nop => []
  | .unknown _ => []

/-- The cells each instruction stores to in a state (R42, R56, R63). -/
def storedCells (s : State) : Instr → List Word
  | .lda _ => []
  | .ldx _ => []
  | .ldy _ => []
  | .sta o => [effectiveAddress s o.mem]
  | .stx o => [effectiveAddress s o.mem]
  | .sty o => [effectiveAddress s o.mem]
  | .tax => []
  | .tay => []
  | .txa => []
  | .tya => []
  | .tsx => []
  | .txs => []
  | .pha => [stackAddr s.regS]
  | .pla => []
  | .php => [stackAddr s.regS]
  | .plp => []
  | .and _ => []
  | .ora _ => []
  | .eor _ => []
  | .adc _ => []
  | .sbc _ => []
  | .cmp _ => []
  | .cpx _ => []
  | .cpy _ => []
  | .inc o => [effectiveAddress s o.mem]
  | .dec o => [effectiveAddress s o.mem]
  | .inx => []
  | .dex => []
  | .iny => []
  | .dey => []
  | .asl o => match o.target with | .acc => [] | .mem m => [effectiveAddress s m]
  | .lsr o => match o.target with | .acc => [] | .mem m => [effectiveAddress s m]
  | .rol o => match o.target with | .acc => [] | .mem m => [effectiveAddress s m]
  | .ror o => match o.target with | .acc => [] | .mem m => [effectiveAddress s m]
  | .bcc _ => []
  | .bcs _ => []
  | .beq _ => []
  | .bne _ => []
  | .bmi _ => []
  | .bpl _ => []
  | .bvc _ => []
  | .bvs _ => []
  | .jmp _ => []
  | .jsr _ => [stackAddr s.regS, stackAddr (s.regS - 1)]
  | .rts => []
  | .rti => []
  | .brk => [stackAddr s.regS, stackAddr (s.regS - 1), stackAddr (s.regS - 2)]
  | .clc => []
  | .sec => []
  | .cli => []
  | .sei => []
  | .cld => []
  | .sed => []
  | .clv => []
  | .bit _ => []
  | .nop => []
  | .unknown _ => []

/-- The instructions that may overwrite PC: the transfers of control of 46_branch_jump.md, BRK and RTI. -/
def transfersControl : Instr → Bool
  | .lda _ => false
  | .ldx _ => false
  | .ldy _ => false
  | .sta _ => false
  | .stx _ => false
  | .sty _ => false
  | .tax => false
  | .tay => false
  | .txa => false
  | .tya => false
  | .tsx => false
  | .txs => false
  | .pha => false
  | .pla => false
  | .php => false
  | .plp => false
  | .and _ => false
  | .ora _ => false
  | .eor _ => false
  | .adc _ => false
  | .sbc _ => false
  | .cmp _ => false
  | .cpx _ => false
  | .cpy _ => false
  | .inc _ => false
  | .dec _ => false
  | .inx => false
  | .dex => false
  | .iny => false
  | .dey => false
  | .asl _ => false
  | .lsr _ => false
  | .rol _ => false
  | .ror _ => false
  | .bcc _ => true
  | .bcs _ => true
  | .beq _ => true
  | .bne _ => true
  | .bmi _ => true
  | .bpl _ => true
  | .bvc _ => true
  | .bvs _ => true
  | .jmp _ => true
  | .jsr _ => true
  | .rts => true
  | .rti => true
  | .brk => true
  | .clc => false
  | .sec => false
  | .cli => false
  | .sei => false
  | .cld => false
  | .sed => false
  | .clv => false
  | .bit _ => false
  | .nop => false
  | .unknown _ => false

/-- The read-style instructions of R115's list. -/
def readStyle : Instr → Bool
  | .lda _ => true
  | .ldx _ => true
  | .ldy _ => true
  | .sta _ => false
  | .stx _ => false
  | .sty _ => false
  | .tax => false
  | .tay => false
  | .txa => false
  | .tya => false
  | .tsx => false
  | .txs => false
  | .pha => false
  | .pla => false
  | .php => false
  | .plp => false
  | .and _ => true
  | .ora _ => true
  | .eor _ => true
  | .adc _ => true
  | .sbc _ => true
  | .cmp _ => true
  | .cpx _ => false
  | .cpy _ => false
  | .inc _ => false
  | .dec _ => false
  | .inx => false
  | .dex => false
  | .iny => false
  | .dey => false
  | .asl _ => false
  | .lsr _ => false
  | .rol _ => false
  | .ror _ => false
  | .bcc _ => false
  | .bcs _ => false
  | .beq _ => false
  | .bne _ => false
  | .bmi _ => false
  | .bpl _ => false
  | .bvc _ => false
  | .bvs _ => false
  | .jmp _ => false
  | .jsr _ => false
  | .rts => false
  | .rti => false
  | .brk => false
  | .clc => false
  | .sec => false
  | .cli => false
  | .sei => false
  | .cld => false
  | .sed => false
  | .clv => false
  | .bit _ => true
  | .nop => true
  | .unknown _ => false

/-! ### Packed decimal (44_arithmetic_compare.md R158) -/

/-- Both nibbles are at most 9. -/
def BcdWellFormed (b : Byte) : Prop := b.toNat % 16 ≤ 9 ∧ b.toNat / 16 ≤ 9

/-- `val(b) = 10 * b[7:4] + b[3:0]`. -/
def bcdValue (b : Byte) : Nat := 10 * (b.toNat / 16) + b.toNat % 16

/-! ### Hex text (80_host_interface.md R272) -/

/-- The sixteen digits, letters in upper case. -/
def upperHexDigits : List Char :=
  ['0', '1', '2', '3', '4', '5', '6', '7', '8', '9', 'A', 'B', 'C', 'D', 'E', 'F']

/-- The characters R272 admits as digits. -/
def hexDigits : List Char := upperHexDigits ++ ['a', 'b', 'c', 'd', 'e', 'f']

/-- The value of a digit: its place among the sixteen, letters in either case. -/
def digitValue (c : Char) : Nat := upperHexDigits.idxOf c.toUpper

end Sys2Proof.Safety
end

