-- ==== Sys2Proof/Certificates/Slice0/Obligations.lean ====
section
/-! DEFINITION. The statements for the provers. Each docstring names the rules it formalises; a statement
that rests on a choice of the model or on an inference the spec marks as its own says so. `M` is
`sourceByte s o.source`, the value of which `OperandValues` and `EffectiveAddresses` fix. PC in the state an
instruction runs in is already the next instruction's address (50_clock_and_step.md R212). -/

open Sys2Proof Sys2Proof.Machine Sys2Proof.Safety

/-! ## Encoding -/

/-- R70, R72, R76: decoding the bytes of a well-formed instruction gives it back with every operand bit, and
leaves the bytes after it. -/
def Obligations.DecodeOfEncode : Prop :=
  ∀ (i : Instr) (rest : List Byte), i.wf = true → decode (encode i ++ rest) = .ok (i, rest)

/-- R71, R73: any three bytes decode to a well-formed instruction that encodes to the first of them, as many
as its length, so each encoding has one meaning and no byte of it is dropped. -/
def Obligations.EncodeOfDecode : Prop :=
  ∀ op b1 b2 : Byte,
    (decodeBytes op b1 b2).wf = true ∧
    encode (decodeBytes op b1 b2) = [op, b1, b2].take (decodeBytes op b1 b2).length

/-- R75, R201: the 105 bytes of R75, and no other, decode as UnknownOpcode; `???`, Implied, length 1, 2
cycles, a no-op with a note. The note's place in State is the model's choice (log entry 5). -/
def Obligations.UnknownOpcodesAreR75 : Prop :=
  unknownBytes.length = 105 ∧ unknownBytes.Nodup ∧
  ∀ op b1 b2 : Byte,
    (op ∈ unknownBytes ↔ decodeBytes op b1 b2 = .unknown op) ∧
    mnemonicText (.unknown op) = "???" ∧ (Instr.unknown op).operand = .implied ∧
    Encoded (.unknown op) op 1 ∧
    ∀ s : State,
      exec (.unknown op) s =
        .next { s with
          pendingCycles := 1
          unknownNotes := { addr := s.pc - 1, byte := op } :: s.unknownNotes }

/-- R74: words written out from the table decode to the instructions they stand for (sanity). -/
def Obligations.SampleWordsDecode : Prop :=
  decodeTableWord 24 0x02008D = some (.sta (.abs 0x0200)) ∧
  decodeTableWord 16 0x01A9 = some (.lda (.imm 0x01)) ∧
  decodeTableWord 16 0x5069 = some (.adc (.imm 0x50)) ∧
  decodeTableWord 16 0x7FF0 = some (.beq 0x7F) ∧
  decodeTableWord 24 0x02FF6C = some (.jmp (.ind 0x02FF)) ∧
  decodeTableWord 8 0x00 = some .brk ∧
  decodeTableWord 8 0x0A = some (.asl .acc) ∧
  decodeTableWord 8 0x02 = some (.unknown 0x02)

/-! ## The evaluator -/

/-- R101 to R108, R111, R112: effective operand, length and evaluator penalty of the nine modes that never
cross a page and of Relative, whose evaluator penalty is 0; operand bytes in the order of R76. The three
modes that can cross a page are in `IndexedAndIndirectAddresses`. -/
def Obligations.EffectiveAddresses : Prop :=
  ∀ (s : State) (b1 b2 : Byte),
    evaluate s .implied = ⟨.none, 0, 0⟩ ∧
    evaluate s .accumulator = ⟨.accumulator, 0, 0⟩ ∧
    evaluate s (.immediate b1) = ⟨.immediate b1, 1, 0⟩ ∧
    (∃ ea, evaluate s (.memory (.zp b1)) = ⟨.address ea, 1, 0⟩ ∧ ea.toNat = b1.toNat) ∧
    (∃ ea, evaluate s (.memory (.zpX b1)) = ⟨.address ea, 1, 0⟩ ∧
      ea.toNat = (b1.toNat + s.regX.toNat) % 256) ∧
    (∃ ea, evaluate s (.memory (.zpY b1)) = ⟨.address ea, 1, 0⟩ ∧
      ea.toNat = (b1.toNat + s.regY.toNat) % 256) ∧
    (∃ ea, evaluate s (.memory (.abs (wordOf b2 b1))) = ⟨.address ea, 2, 0⟩ ∧
      ea.toNat = b2.toNat * 256 + b1.toNat) ∧
    (∃ ea, evaluate s (.memory (.indX b1)) = ⟨.address ea, 1, 0⟩ ∧
      ea.toNat =
        (s.read (BitVec.ofNat 16 ((b1.toNat + s.regX.toNat + 1) % 256))).toNat * 256 +
          (s.read (BitVec.ofNat 16 ((b1.toNat + s.regX.toNat) % 256))).toNat) ∧
    (evaluate s (.indirect (wordOf b2 b1)) =
        ⟨.address (s.readWordJmpInd (wordOf b2 b1)), 2, 0⟩ ∧
      (s.readWordJmpInd (wordOf b2 b1)).toNat =
        (s.read (BitVec.ofNat 16 (b2.toNat * 256 + (b1.toNat + 1) % 256))).toNat * 256 +
          (s.read (BitVec.ofNat 16 (b2.toNat * 256 + b1.toNat))).toNat) ∧
    (evaluate s (.relative b1) = ⟨.address (relativeTarget s b1), 1, 0⟩ ∧
      (relativeTarget s b1).toNat =
        (if b1.toNat < 128 then s.pc.toNat + b1.toNat else s.pc.toNat + 65280 + b1.toNat) % 65536)

/-- R109, R110, R113: address and length of the three modes that can cross a page, whose penalty is stated in
`PagePenaltyIsForReadStyle`; R107, R108, R111: the targets of branches and of JMP as numbers. -/
def Obligations.IndexedAndIndirectAddresses : Prop :=
  ∀ (s : State) (b1 b2 : Byte) (w : Word),
    (∀ m ∈ [MemOperand.absX w, .absY w, .indY b1],
      (evaluate s (.memory m)).effective = .address (effectiveAddress s m)) ∧
    (evaluate s (.memory (.absX w))).length = 2 ∧ (evaluate s (.memory (.absY w))).length = 2 ∧
    (evaluate s (.memory (.indY b1))).length = 1 ∧
    (effectiveAddress s (.absX w)).toNat = (w.toNat + s.regX.toNat) % 65536 ∧
    (effectiveAddress s (.absY w)).toNat = (w.toNat + s.regY.toNat) % 65536 ∧
    (effectiveAddress s (.indY b1)).toNat =
      ((s.read (BitVec.ofNat 16 ((b1.toNat + 1) % 256))).toNat * 256 +
        (s.read (BitVec.ofNat 16 b1.toNat)).toNat + s.regY.toNat) % 65536 ∧
    (relativeTarget s b1).toNat =
      (if b1.toNat < 128 then s.pc.toNat + b1.toNat else s.pc.toNat + 65280 + b1.toNat) % 65536 ∧
    (jumpTarget s (.abs (wordOf b2 b1))).toNat = b2.toNat * 256 + b1.toNat ∧
    (jumpTarget s (.ind w)).toNat =
      (s.read (BitVec.ofNat 16 (w.toNat / 256 * 256 + (w.toNat + 1) % 256))).toNat * 256 +
        (s.read w).toNat

/-- R116: the operand byte `M` of a reading instruction and the operand value of a shift. -/
def Obligations.OperandValues : Prop :=
  ∀ (s : State) (v : Byte) (m : MemOperand) (ea : Word),
    sourceByte s (.imm v) = v ∧
    targetByte s .acc = s.regA ∧
    ((evaluate s (.memory m)).effective = .address ea →
      sourceByte s (.mem m) = s.read ea ∧ targetByte s (.mem m) = s.read ea)

/-- R114: pages differ exactly when the low-byte sum is at least 256; where the sum wraps past 0xFFFF this is
the spec's decision D21 (log entry 7). -/
def Obligations.PageCrossing : Prop :=
  ∀ (base : Word) (index : Byte),
    (crossed base (base + index.setWidth 16) =
      if base &&& 0xFF00 = (base + index.setWidth 16) &&& 0xFF00 then 0 else 1) ∧
    (crossed base (base + index.setWidth 16) =
      if 256 ≤ base.toNat % 256 + index.toNat then 1 else 0)

/-- R115: the penalty is charged to the read-style instructions alone, where the address is indexed across
a page; 23 cells of the table carry it. -/
def Obligations.PagePenaltyIsForReadStyle : Prop :=
  (∀ (i : Instr) (s : State),
    pagePenalty i s = if readStyle i then (evaluate s i.operand).crossing else 0) ∧
  (∀ (s : State) (w : Word) (z : Byte),
    (evaluate s (.memory (.absX w))).crossing = crossed w (effectiveAddress s (.absX w)) ∧
    (evaluate s (.memory (.absY w))).crossing = crossed w (effectiveAddress s (.absY w)) ∧
    (evaluate s (.memory (.indY z))).crossing =
      crossed (s.readWordZP z) (effectiveAddress s (.indY z))) ∧
  (List.range 256).countP (fun op => paysPageCross (decodeBytes (BitVec.ofNat 8 op) 0 0)) = 23

/-! ## Memory and stack -/

/-- R41, R42: a write is read back, changes no other cell and no register. -/
def Obligations.ReadAfterWrite : Prop :=
  ∀ (s : State) (a : Word) (v : Byte), s.mem.wf = true →
    (s.write a v).read a = v ∧ Frame [] [] [a] s (s.write a v) ∧ (s.write a v).pc = s.pc ∧
    (s.write a v).pendingCycles = s.pendingCycles

/-- The model's own (log entry 2): canonical memories that read alike at every address are the same data. -/
def Obligations.EqualReadsEqualMemory : Prop :=
  ∀ m n : Memory, m.wf = true → n.wf = true →
    (∀ a : Word, cellRead m a.toNat = cellRead n a.toNat) → m = n

/-- R43, R44, R45, R46: the three word reads, each with its own wrap, and the word write. -/
def Obligations.WordAccesses : Prop :=
  ∀ (s : State) (a v : Word) (zp : Byte), s.mem.wf = true →
    (s.readWord a).toNat =
      (s.read (BitVec.ofNat 16 ((a.toNat + 1) % 65536))).toNat * 256 + (s.read a).toNat ∧
    (s.writeWord a v).readWord a = v ∧
    Frame [] [] [a, a + 1] s (s.writeWord a v) ∧
    (s.readWordZP zp).toNat =
      (s.read (BitVec.ofNat 16 ((zp.toNat + 1) % 256))).toNat * 256 +
        (s.read (BitVec.ofNat 16 zp.toNat)).toNat ∧
    (s.readWordJmpInd a).toNat =
      (s.read ((a &&& 0xFF00) ||| ((a + 1) &&& 0x00FF))).toNat * 256 + (s.read a).toNat ∧
    (a.toNat % 256 ≠ 255 → s.readWordJmpInd a = s.readWord a)

/-- R56, R63: `Push` and `PushWord`, wrapping inside page one; S and the pushed cells alone are changed. -/
def Obligations.PushGoesDownPageOne : Prop :=
  ∀ (s : State) (v : Byte) (w : Word), s.mem.wf = true →
    (∀ sp : Byte, (stackAddr sp).toNat = 256 + sp.toNat) ∧
    ((s.push v).read (stackAddr s.regS) = v ∧
      (s.push v).regS.toNat = (s.regS.toNat + 255) % 256 ∧
      Frame [.S] [] [stackAddr s.regS] s (s.push v) ∧
      (s.push v).pc = s.pc ∧ (s.push v).pendingCycles = s.pendingCycles) ∧
    ((s.pushWord w).read (stackAddr s.regS) = hi8 w ∧
      (s.pushWord w).read (stackAddr (s.regS - 1)) = lo8 w ∧
      (s.pushWord w).regS.toNat = (s.regS.toNat + 254) % 256 ∧
      Frame [.S] [] [stackAddr s.regS, stackAddr (s.regS - 1)] s (s.pushWord w) ∧
      (s.pushWord w).pc = s.pc ∧ (s.pushWord w).pendingCycles = s.pendingCycles)

/-- R57 (which the spec derives from R56), R64: `Pop` and `PopWord`, which change S alone, and that they undo
`Push` and `PushWord`. -/
def Obligations.PopComesBackUp : Prop :=
  ∀ (s : State) (v : Byte) (w : Word),
    (s.popped.regS.toNat = (s.regS.toNat + 1) % 256 ∧ s.top = s.read (stackAddr s.popped.regS) ∧
      Frame [.S] [] [] s s.popped ∧ s.popped.pc = s.pc ∧
      s.popped.pendingCycles = s.pendingCycles) ∧
    (s.poppedWord.regS.toNat = (s.regS.toNat + 2) % 256 ∧ Frame [.S] [] [] s s.poppedWord ∧
      s.poppedWord.pc = s.pc ∧ s.poppedWord.pendingCycles = s.pendingCycles ∧
      s.topWord.toNat =
        (s.read (stackAddr (s.regS + 2))).toNat * 256 + (s.read (stackAddr (s.regS + 1))).toNat) ∧
    (s.mem.wf = true →
      (s.push v).top = v ∧ (s.push v).popped.regS = s.regS ∧
      (s.pushWord w).topWord = w ∧ (s.pushWord w).poppedWord.regS = s.regS)

/-! ## The clock -/

/-- R212: in READY, when the bytes at PC decode to a well-formed instruction, the tick is its `exec` with PC
past its bytes. -/
def Obligations.TickRunsTheDecodedInstruction : Prop :=
  ∀ (s : State) (i : Instr) (rest : List Byte), Ready s → i.wf = true →
    decode [s.read s.pc, s.read (s.pc + 1), s.read (s.pc + 2)] = .ok (i, rest) →
    step s = exec i { s with pc := s.pc + BitVec.ofNat 16 i.length }

/-- R212, R70: in READY, when the bytes of a well-formed instruction stand at PC and the addresses after it
(modulo 65 536), the tick runs that instruction. -/
def Obligations.EncodedBytesRun : Prop :=
  ∀ (s : State) (i : Instr), Ready s → i.wf = true →
    (∀ (k : Nat) (b : Byte), (encode i)[k]? = some b → s.read (s.pc + BitVec.ofNat 16 k) = b) →
    step s = exec i { s with pc := s.pc + BitVec.ofNat 16 (encode i).length }

/-- R251: the first tick performs the reset sequence and, by the spec's decision D1 (log entry 7), goes on as a
tick of the state it leaves. -/
def Obligations.FirstTickResets : Prop :=
  ∀ s : State, s.resetDone = false →
    step s =
      step { s with
        pc := wordOf (s.read 0xFFFD) (s.read 0xFFFC)
        regS := 0xFD
        regP := 0x24
        regA := 0x00
        regX := 0x00
        regY := 0x00
        resetDone := true }

/-- R211: an idle tick counts down and changes nothing else. -/
def Obligations.IdleTickOnlyCountsDown : Prop :=
  ∀ s : State, s.resetDone = true → 0 < s.pendingCycles →
    step s = .next { s with pendingCycles := s.pendingCycles - 1 }

/-- R210, R230, R49: every tick has a next state; after it the reset latch is set and the notes are the old
ones or one more. -/
def Obligations.TickIsTotal : Prop :=
  ∀ s : State, ∃ t, step s = .next t ∧ t.resetDone = true ∧
    (t.unknownNotes = s.unknownNotes ∨
      ∃ n : UnknownNote, n.byte ∈ unknownBytes ∧ t.unknownNotes = n :: s.unknownNotes)

/-- R213, R214: from READY, the fetch tick leaves n - 1 in 1 to 6, and after the n - 1 idle ticks the state
is the one the fetch tick left, with no cycle pending. -/
def Obligations.InstructionOccupiesItsTicks : Prop :=
  ∀ s : State, Ready s → ∃ t, step s = .next t ∧ 1 ≤ t.pendingCycles ∧ t.pendingCycles ≤ 6 ∧
    ∀ k, k ≤ t.pendingCycles →
      core.run (k + 1) s = .next { t with pendingCycles := t.pendingCycles - k }

/-- R213: what every instruction costs: base count, page-cross penalty, branch penalty. That the page test of
a taken branch is against the next instruction is the spec's decision D6 (log entry 7);
`BranchesFollowTheirCondition` says which branches pay it. -/
def Obligations.CyclesOfEveryInstruction : Prop :=
  ∀ (i : Instr) (s t : State), exec i s = .next t →
    2 ≤ baseCycles i ∧ baseCycles i ≤ 7 ∧
    ∃ extra, Costs (baseCycles i + pagePenalty i s + extra) t ∧
      (extra ≠ 0 → ∃ off, i.operand = .relative off ∧ t.pc = relativeTarget s off ∧
        extra = 1 + crossed s.pc t.pc)

/-! ## The invariant -/

/-- R250: power-on. PC is the spec's own decision D2 (log entry 1). -/
def Obligations.PowerOnState : Prop :=
  State.reset.regA = 0x00 ∧ State.reset.regX = 0x00 ∧ State.reset.regY = 0x00 ∧
  State.reset.regS = 0xFD ∧ State.reset.regP = 0x24 ∧
  (∀ f, State.reset.flag f = decide (f = .I ∨ f = .U)) ∧
  State.reset.pendingCycles = 0 ∧ State.reset.resetDone = false ∧ State.reset.pc = 0x0000 ∧
  (∀ a : Word, State.reset.read a = 0x00) ∧ createProcessor none = State.reset ∧
  ∀ s : State, createProcessor (some s) = s

/-- R31: the power-on state meets the invariant. -/
def Obligations.ResetMeetsInvariant : Prop := Inv State.reset

/-- R31, R20, R21, R27: every tick keeps the invariant, from every state that meets it. -/
def Obligations.TickKeepsInvariant : Prop :=
  ∀ s t : State, Inv s → step s = .next t → Inv t

/-- R31 with the parameter `INIT_MEM` of R4 left free: from every launch state, every number of ticks runs
and the state after them meets the invariant. -/
def Obligations.EveryRunIsSafe : Prop :=
  ∀ (initMem : Memory → Prop) (s : State), Launch initMem s →
    ∀ k : Nat, SafeFor k s ∧ ∀ t, core.run k s = .next t → Inv t

/-! ## Rules over all instructions -/

/-- R35, and the register lists of R10 to R13: every instruction completes, and changes only the registers,
flags and cells listed for it; PC changes only in a transfer of control. The note of an UnknownOpcode is
the model's own field and left out here (log entry 5). -/
def Obligations.EveryInstructionStaysInItsFrame : Prop :=
  ∀ (i : Instr) (s : State), ∃ t, exec i s = .next t ∧
    Frame (registerWriters i) (flagWriters i) (storedCells s i) s
      { t with unknownNotes := s.unknownNotes } ∧
    (transfersControl i = false → t.pc = s.pc)

/-- R18, R232 (the spec's decision D20): the I flag masks nothing. An instruction that does not push P does
the same in two states that differ only in I, but for I itself. -/
def Obligations.InterruptFlagHasNoEffect : Prop :=
  ∀ (i : Instr) (s : State) (b : Bool), i ≠ .php → i ≠ .brk →
    ∃ t u, exec i s = .next t ∧ exec i (s.putFlag .I b) = .next u ∧
      { u with regP := t.regP } = t ∧ ∀ f, f ≠ .I → u.flag f = t.flag f

/-! ## Loads and stores -/

/-- R120, R121, R122 -/
def Obligations.LoadsReadTheirOperand : Prop :=
  (∀ (o : AluOperand) (s : State), ∃ t, exec (.lda o) s = .next t ∧
    t.regA = sourceByte s o.source ∧ ZNFrom t.regA t ∧ Frame [.A] [.Z, .N] [] s t ∧ t.pc = s.pc ∧
    Encoded (.lda o) (o.pick 0xA9 0xA5 0xB5 0xAD 0xBD 0xB9 0xA1 0xB1) (o.pick 2 2 2 3 3 3 2 2) ∧
    Costs (o.pick 2 3 4 4 4 4 6 5 + (evaluate s o.source.operand).crossing) t) ∧
  (∀ (o : LdxOperand) (s : State), ∃ t, exec (.ldx o) s = .next t ∧
    t.regX = sourceByte s o.source ∧ ZNFrom t.regX t ∧ Frame [.X] [.Z, .N] [] s t ∧ t.pc = s.pc ∧
    Encoded (.ldx o) (o.pick 0xA2 0xA6 0xB6 0xAE 0xBE) (o.pick 2 2 2 3 3) ∧
    Costs (o.pick 2 3 4 4 4 + (evaluate s o.source.operand).crossing) t) ∧
  (∀ (o : LdyOperand) (s : State), ∃ t, exec (.ldy o) s = .next t ∧
    t.regY = sourceByte s o.source ∧ ZNFrom t.regY t ∧ Frame [.Y] [.Z, .N] [] s t ∧ t.pc = s.pc ∧
    Encoded (.ldy o) (o.pick 0xA0 0xA4 0xB4 0xAC 0xBC) (o.pick 2 2 2 3 3) ∧
    Costs (o.pick 2 3 4 4 4 + (evaluate s o.source.operand).crossing) t)

/-- R123, R124, R125 -/
def Obligations.StoresWriteTheirCell : Prop :=
  (∀ (o : StaOperand) (s : State), s.mem.wf = true → ∃ t, exec (.sta o) s = .next t ∧
    t.read (effectiveAddress s o.mem) = s.regA ∧ Frame [] [] [effectiveAddress s o.mem] s t ∧
    t.pc = s.pc ∧ Encoded (.sta o) (o.pick 0x85 0x95 0x8D 0x9D 0x99 0x81 0x91) (o.pick 2 2 3 3 3 2 2) ∧
    Costs (o.pick 3 4 4 5 5 6 6) t) ∧
  (∀ (o : StxOperand) (s : State), s.mem.wf = true → ∃ t, exec (.stx o) s = .next t ∧
    t.read (effectiveAddress s o.mem) = s.regX ∧ Frame [] [] [effectiveAddress s o.mem] s t ∧
    t.pc = s.pc ∧ Encoded (.stx o) (o.pick 0x86 0x96 0x8E) (o.pick 2 2 3) ∧
    Costs (o.pick 3 4 4) t) ∧
  (∀ (o : StyOperand) (s : State), s.mem.wf = true → ∃ t, exec (.sty o) s = .next t ∧
    t.read (effectiveAddress s o.mem) = s.regY ∧ Frame [] [] [effectiveAddress s o.mem] s t ∧
    t.pc = s.pc ∧ Encoded (.sty o) (o.pick 0x84 0x94 0x8C) (o.pick 2 2 3) ∧
    Costs (o.pick 3 4 4) t)

/-! ## Transfers and stack -/

/-- R130 to R135 -/
def Obligations.TransfersCopyARegister : Prop :=
  ∀ s : State,
    (∃ t, exec .tax s = .next t ∧ t.regX = s.regA ∧ ZNFrom s.regA t ∧ Frame [.X] [.Z, .N] [] s t ∧
      t.pc = s.pc ∧ Encoded .tax 0xAA 1 ∧ Costs 2 t) ∧
    (∃ t, exec .tay s = .next t ∧ t.regY = s.regA ∧ ZNFrom s.regA t ∧ Frame [.Y] [.Z, .N] [] s t ∧
      t.pc = s.pc ∧ Encoded .tay 0xA8 1 ∧ Costs 2 t) ∧
    (∃ t, exec .txa s = .next t ∧ t.regA = s.regX ∧ ZNFrom s.regX t ∧ Frame [.A] [.Z, .N] [] s t ∧
      t.pc = s.pc ∧ Encoded .txa 0x8A 1 ∧ Costs 2 t) ∧
    (∃ t, exec .tya s = .next t ∧ t.regA = s.regY ∧ ZNFrom s.regY t ∧ Frame [.A] [.Z, .N] [] s t ∧
      t.pc = s.pc ∧ Encoded .tya 0x98 1 ∧ Costs 2 t) ∧
    (∃ t, exec .tsx s = .next t ∧ t.regX = s.regS ∧ ZNFrom s.regS t ∧ Frame [.X] [.Z, .N] [] s t ∧
      t.pc = s.pc ∧ Encoded .tsx 0xBA 1 ∧ Costs 2 t) ∧
    (∃ t, exec .txs s = .next t ∧ t.regS = s.regX ∧ Frame [.S] [] [] s t ∧
      t.pc = s.pc ∧ Encoded .txs 0x9A 1 ∧ Costs 2 t)

/-- R136, R138 -/
def Obligations.PushesStoreOnTheStack : Prop :=
  ∀ s : State, s.mem.wf = true →
    (∃ t, exec .pha s = .next t ∧ t.read (stackAddr s.regS) = s.regA ∧ t.regS = s.regS - 1 ∧
      Frame [.S] [] [stackAddr s.regS] s t ∧ t.pc = s.pc ∧ Encoded .pha 0x48 1 ∧ Costs 3 t) ∧
    (∃ t, exec .php s = .next t ∧ t.read (stackAddr s.regS) = s.regP ||| 0x30 ∧
      t.regS = s.regS - 1 ∧ Frame [.S] [] [stackAddr s.regS] s t ∧ t.pc = s.pc ∧
      Encoded .php 0x08 1 ∧ Costs 3 t)

/-- R137, R139, and their round-trip laws, whatever PC is between the two instructions. -/
def Obligations.PullsLoadFromTheStack : Prop :=
  ∀ s : State,
    (∃ t, exec .pla s = .next t ∧ t.regA = s.read (stackAddr (s.regS + 1)) ∧
      t.regS = s.regS + 1 ∧ ZNFrom t.regA t ∧ Frame [.A, .S] [.Z, .N] [] s t ∧ t.pc = s.pc ∧
      Encoded .pla 0x68 1 ∧ Costs 4 t) ∧
    (∃ t, exec .plp s = .next t ∧ t.regP = s.read (stackAddr (s.regS + 1)) &&& 0xCF ||| 0x20 ∧
      t.regS = s.regS + 1 ∧ t.flag .B = false ∧ t.flag .U = true ∧
      Frame [.S] [.C, .Z, .I, .D, .B, .U, .V, .N] [] s t ∧ t.pc = s.pc ∧
      Encoded .plp 0x28 1 ∧ Costs 4 t) ∧
    ∀ a : Word, s.mem.wf = true →
      (∃ t u, exec .pha s = .next t ∧ exec .pla { t with pc := a } = .next u ∧
        u.regA = s.regA ∧ u.regS = s.regS ∧ ZNFrom s.regA u) ∧
      (∃ t u, exec .php s = .next t ∧ exec .plp { t with pc := a } = .next u ∧
        u.regS = s.regS ∧ u.flag .B = false ∧ u.flag .U = true ∧
        ∀ f, f ≠ .B → f ≠ .U → u.flag f = s.flag f)

/-! ## Logical and bit test -/

/-- R140, R141, R142 -/
def Obligations.LogicalInstructions : Prop :=
  ∀ (o : AluOperand) (s : State),
    (∃ t, exec (.and o) s = .next t ∧ t.regA = s.regA &&& sourceByte s o.source ∧
      ZNFrom t.regA t ∧ Frame [.A] [.Z, .N] [] s t ∧ t.pc = s.pc ∧
      Encoded (.and o) (o.pick 0x29 0x25 0x35 0x2D 0x3D 0x39 0x21 0x31) (o.pick 2 2 2 3 3 3 2 2) ∧
      Costs (o.pick 2 3 4 4 4 4 6 5 + (evaluate s o.source.operand).crossing) t) ∧
    (∃ t, exec (.ora o) s = .next t ∧ t.regA = s.regA ||| sourceByte s o.source ∧
      ZNFrom t.regA t ∧ Frame [.A] [.Z, .N] [] s t ∧ t.pc = s.pc ∧
      Encoded (.ora o) (o.pick 0x09 0x05 0x15 0x0D 0x1D 0x19 0x01 0x11) (o.pick 2 2 2 3 3 3 2 2) ∧
      Costs (o.pick 2 3 4 4 4 4 6 5 + (evaluate s o.source.operand).crossing) t) ∧
    (∃ t, exec (.eor o) s = .next t ∧ t.regA = s.regA ^^^ sourceByte s o.source ∧
      ZNFrom t.regA t ∧ Frame [.A] [.Z, .N] [] s t ∧ t.pc = s.pc ∧
      Encoded (.eor o) (o.pick 0x49 0x45 0x55 0x4D 0x5D 0x59 0x41 0x51) (o.pick 2 2 2 3 3 3 2 2) ∧
      Costs (o.pick 2 3 4 4 4 4 6 5 + (evaluate s o.source.operand).crossing) t)

/-- R143: N and V come from M alone. -/
def Obligations.BitTestsTheOperand : Prop :=
  ∀ (o : BitOperand) (s : State), ∃ t, exec (.bit o) s = .next t ∧
    t.flag .Z = decide (s.regA &&& s.read (effectiveAddress s o.mem) = 0) ∧
    t.flag .N = (s.read (effectiveAddress s o.mem)).getLsbD 7 ∧
    t.flag .V = (s.read (effectiveAddress s o.mem)).getLsbD 6 ∧
    Frame [] [.Z, .V, .N] [] s t ∧ t.pc = s.pc ∧
    Encoded (.bit o) (o.pick 0x24 0x2C) (o.pick 2 3) ∧ Costs (o.pick 3 4) t

/-! ## Arithmetic and compare -/

/-- R150: ADC. The sum is the integer `A + M + C`; in decimal mode A, C and V come from R151 instead
(`DecimalDigitAlgorithms`), and everything else is the same. -/
def Obligations.AdcAddsWithCarry : Prop :=
  ∀ (o : AluOperand) (s : State), ∃ t, exec (.adc o) s = .next t ∧
    (s.flag .D = false →
      let m := sourceByte s o.source
      let sum := s.regA.toNat + m.toNat + (if s.flag .C then 1 else 0)
      t.regA.toNat = sum % 256 ∧ t.flag .C = decide (255 < sum) ∧
      t.flag .V = (((s.regA.toNat ^^^ sum) &&& (m.toNat ^^^ sum) &&& 0x80) != 0)) ∧
    ZNFrom t.regA t ∧ Frame [.A] [.C, .Z, .V, .N] [] s t ∧ t.pc = s.pc ∧
    Encoded (.adc o) (o.pick 0x69 0x65 0x75 0x6D 0x7D 0x79 0x61 0x71) (o.pick 2 2 2 3 3 3 2 2) ∧
    Costs (o.pick 2 3 4 4 4 4 6 5 + (evaluate s o.source.operand).crossing) t

/-- R152: SBC, in binary mode a subtraction with borrow, C = 1 meaning no borrow; V by ADC's formula with M
complemented. In decimal mode A, C and V come from R153 instead (`DecimalDigitAlgorithms`). -/
def Obligations.SbcSubtractsWithBorrow : Prop :=
  ∀ (o : AluOperand) (s : State), ∃ t, exec (.sbc o) s = .next t ∧
    (s.flag .D = false →
      let m := sourceByte s o.source
      let borrow := if s.flag .C then 0 else 1
      let sum := s.regA.toNat + (255 - m.toNat) + (1 - borrow)
      t.regA.toNat = (s.regA.toNat + 256 - m.toNat - borrow) % 256 ∧ t.regA.toNat = sum % 256 ∧
      t.flag .C = decide (m.toNat + borrow ≤ s.regA.toNat) ∧ t.flag .C = decide (255 < sum) ∧
      t.flag .V = (((s.regA.toNat ^^^ sum) &&& ((255 - m.toNat) ^^^ sum) &&& 0x80) != 0)) ∧
    ZNFrom t.regA t ∧ Frame [.A] [.C, .Z, .V, .N] [] s t ∧ t.pc = s.pc ∧
    Encoded (.sbc o) (o.pick 0xE9 0xE5 0xF5 0xED 0xFD 0xF9 0xE1 0xF1) (o.pick 2 2 2 3 3 3 2 2) ∧
    Costs (o.pick 2 3 4 4 4 4 6 5 + (evaluate s o.source.operand).crossing) t

/-- R157: V reports overflow of the signed reading, in binary mode. -/
def Obligations.OverflowIsSignedOverflow : Prop :=
  ∀ (o : AluOperand) (s : State), s.flag .D = false →
    (∃ t, exec (.adc o) s = .next t ∧
      (let sum := s.regA.toInt + (sourceByte s o.source).toInt + (if s.flag .C then 1 else 0)
       t.flag .V = !decide (-128 ≤ sum ∧ sum ≤ 127))) ∧
    (∃ t, exec (.sbc o) s = .next t ∧
      (let diff := s.regA.toInt - (sourceByte s o.source).toInt - (if s.flag .C then 0 else 1)
       t.flag .V = !decide (-128 ≤ diff ∧ diff ≤ 127)))

/-- The BCD law for ADC on well-formed operands (R158, which the spec derives from R151); Z and N from the
final byte. V is not stated: it rests on the spec's decision D9. -/
def Obligations.AdcObeysTheBcdLaw : Prop :=
  ∀ (o : AluOperand) (s : State), s.flag .D = true → BcdWellFormed s.regA →
    BcdWellFormed (sourceByte s o.source) → ∃ t, exec (.adc o) s = .next t ∧
      (let sum := bcdValue s.regA + bcdValue (sourceByte s o.source) + (if s.flag .C then 1 else 0)
       BcdWellFormed t.regA ∧ bcdValue t.regA = sum % 100 ∧ t.flag .C = decide (100 ≤ sum)) ∧
      ZNFrom t.regA t

/-- The BCD law for SBC on well-formed operands (R158, which the spec derives from R153). -/
def Obligations.SbcObeysTheBcdLaw : Prop :=
  ∀ (o : AluOperand) (s : State), s.flag .D = true → BcdWellFormed s.regA →
    BcdWellFormed (sourceByte s o.source) → ∃ t, exec (.sbc o) s = .next t ∧
      (let sub := bcdValue (sourceByte s o.source) + (if s.flag .C then 0 else 1)
       BcdWellFormed t.regA ∧ bcdValue t.regA = (bcdValue s.regA + 100 - sub) % 100 ∧
       t.flag .C = decide (sub ≤ bcdValue s.regA)) ∧
      ZNFrom t.regA t

/-- ADC and SBC in decimal mode on ANY operands, by the digit algorithms of R151 and R153. On ill-formed
operands, and for V everywhere, the values are the spec's own decisions D7, D8 and D9 and not its source's
(log entry 4). -/
def Obligations.DecimalDigitAlgorithms : Prop :=
  ∀ (o : AluOperand) (s : State), s.flag .D = true →
    (∃ t, exec (.adc o) s = .next t ∧
      (let m := sourceByte s o.source
       let c := if s.flag .C then 1 else 0
       let sum := s.regA.toNat + m.toNat + c
       let lo := s.regA.toNat % 16 + m.toNat % 16 + c
       let lo' := if 9 < lo then lo + 6 else lo
       let hi := s.regA.toNat / 16 + m.toNat / 16 + (if 15 < lo' then 1 else 0)
       let hi' := if 9 < hi then hi + 6 else hi
       t.regA.toNat = hi' % 16 * 16 + lo' % 16 ∧ t.flag .C = decide (15 < hi') ∧
       t.flag .V = (((s.regA.toNat ^^^ sum) &&& (m.toNat ^^^ sum) &&& 0x80) != 0)) ∧
      ZNFrom t.regA t) ∧
    (∃ t, exec (.sbc o) s = .next t ∧
      (let m := sourceByte s o.source
       let b := if s.flag .C then 0 else 1
       let sum := s.regA.toNat + (255 - m.toNat) + (1 - b)
       let bl := if s.regA.toNat % 16 < m.toNat % 16 + b then 1 else 0
       let lo := s.regA.toNat % 16 + 32 - m.toNat % 16 - b - 6 * bl
       let bh := if s.regA.toNat / 16 < m.toNat / 16 + bl then 1 else 0
       let hi := s.regA.toNat / 16 + 32 - m.toNat / 16 - bl - 6 * bh
       t.regA.toNat = hi % 16 * 16 + lo % 16 ∧ t.flag .C = decide (bh = 0) ∧
       t.flag .V = (((s.regA.toNat ^^^ sum) &&& ((255 - m.toNat) ^^^ sum) &&& 0x80) != 0)) ∧
      ZNFrom t.regA t)

/-- R154, R155, R156: unsigned, no borrow in, D not read. -/
def Obligations.ComparesSetTheirFlags : Prop :=
  (∀ (o : AluOperand) (s : State), ∃ t, exec (.cmp o) s = .next t ∧
    (let m := sourceByte s o.source
     t.flag .C = decide (m.toNat ≤ s.regA.toNat) ∧ t.flag .Z = decide (s.regA = m) ∧
     t.flag .N = decide (128 ≤ (s.regA.toNat + 256 - m.toNat) % 256)) ∧
    Frame [] [.C, .Z, .N] [] s t ∧ t.pc = s.pc ∧
    Encoded (.cmp o) (o.pick 0xC9 0xC5 0xD5 0xCD 0xDD 0xD9 0xC1 0xD1) (o.pick 2 2 2 3 3 3 2 2) ∧
    Costs (o.pick 2 3 4 4 4 4 6 5 + (evaluate s o.source.operand).crossing) t) ∧
  (∀ (o : CpOperand) (s : State), ∃ t, exec (.cpx o) s = .next t ∧
    (let m := sourceByte s o.source
     t.flag .C = decide (m.toNat ≤ s.regX.toNat) ∧ t.flag .Z = decide (s.regX = m) ∧
     t.flag .N = decide (128 ≤ (s.regX.toNat + 256 - m.toNat) % 256)) ∧
    Frame [] [.C, .Z, .N] [] s t ∧ t.pc = s.pc ∧
    Encoded (.cpx o) (o.pick 0xE0 0xE4 0xEC) (o.pick 2 2 3) ∧ Costs (o.pick 2 3 4) t) ∧
  (∀ (o : CpOperand) (s : State), ∃ t, exec (.cpy o) s = .next t ∧
    (let m := sourceByte s o.source
     t.flag .C = decide (m.toNat ≤ s.regY.toNat) ∧ t.flag .Z = decide (s.regY = m) ∧
     t.flag .N = decide (128 ≤ (s.regY.toNat + 256 - m.toNat) % 256)) ∧
    Frame [] [.C, .Z, .N] [] s t ∧ t.pc = s.pc ∧
    Encoded (.cpy o) (o.pick 0xC0 0xC4 0xCC) (o.pick 2 2 3) ∧ Costs (o.pick 2 3 4) t)

/-! ## Increments, decrements, shifts, rotates -/

/-- R160, R161 -/
def Obligations.IncAndDecModifyTheirCell : Prop :=
  ∀ (o : RmwOperand) (s : State), s.mem.wf = true →
    (∃ t, exec (.inc o) s = .next t ∧
      (t.read (effectiveAddress s o.mem)).toNat =
        ((s.read (effectiveAddress s o.mem)).toNat + 1) % 256 ∧
      ZNFrom (t.read (effectiveAddress s o.mem)) t ∧
      Frame [] [.Z, .N] [effectiveAddress s o.mem] s t ∧ t.pc = s.pc ∧
      Encoded (.inc o) (o.pick 0xE6 0xF6 0xEE 0xFE) (o.pick 2 2 3 3) ∧ Costs (o.pick 5 6 6 7) t) ∧
    (∃ t, exec (.dec o) s = .next t ∧
      (t.read (effectiveAddress s o.mem)).toNat =
        ((s.read (effectiveAddress s o.mem)).toNat + 255) % 256 ∧
      ZNFrom (t.read (effectiveAddress s o.mem)) t ∧
      Frame [] [.Z, .N] [effectiveAddress s o.mem] s t ∧ t.pc = s.pc ∧
      Encoded (.dec o) (o.pick 0xC6 0xD6 0xCE 0xDE) (o.pick 2 2 3 3) ∧ Costs (o.pick 5 6 6 7) t)

/-- R162, R163, R164, R165 -/
def Obligations.IndexRegistersCountUpAndDown : Prop :=
  ∀ s : State,
    (∃ t, exec .inx s = .next t ∧ t.regX.toNat = (s.regX.toNat + 1) % 256 ∧ ZNFrom t.regX t ∧
      Frame [.X] [.Z, .N] [] s t ∧ t.pc = s.pc ∧ Encoded .inx 0xE8 1 ∧ Costs 2 t) ∧
    (∃ t, exec .dex s = .next t ∧ t.regX.toNat = (s.regX.toNat + 255) % 256 ∧ ZNFrom t.regX t ∧
      Frame [.X] [.Z, .N] [] s t ∧ t.pc = s.pc ∧ Encoded .dex 0xCA 1 ∧ Costs 2 t) ∧
    (∃ t, exec .iny s = .next t ∧ t.regY.toNat = (s.regY.toNat + 1) % 256 ∧ ZNFrom t.regY t ∧
      Frame [.Y] [.Z, .N] [] s t ∧ t.pc = s.pc ∧ Encoded .iny 0xC8 1 ∧ Costs 2 t) ∧
    (∃ t, exec .dey s = .next t ∧ t.regY.toNat = (s.regY.toNat + 255) % 256 ∧ ZNFrom t.regY t ∧
      Frame [.Y] [.Z, .N] [] s t ∧ t.pc = s.pc ∧ Encoded .dey 0x88 1 ∧ Costs 2 t)

/-- R166, R167, R168, R169: on A and on memory. -/
def Obligations.ShiftsAndRotates : Prop :=
  ∀ (o : ShiftOperand) (s : State), s.mem.wf = true →
    (∃ t r, exec (.asl o) s = .next t ∧ Wrote s t o.target r [.C, .Z, .N] ∧
      r.toNat = (targetByte s o.target).toNat * 2 % 256 ∧
      t.flag .C = decide (128 ≤ (targetByte s o.target).toNat) ∧ ZNFrom r t ∧ t.pc = s.pc ∧
      Encoded (.asl o) (o.pick 0x0A 0x06 0x16 0x0E 0x1E) (o.pick 1 2 2 3 3) ∧
      Costs (o.pick 2 5 6 6 7) t) ∧
    (∃ t r, exec (.lsr o) s = .next t ∧ Wrote s t o.target r [.C, .Z, .N] ∧
      r.toNat = (targetByte s o.target).toNat / 2 ∧
      t.flag .C = decide ((targetByte s o.target).toNat % 2 = 1) ∧ ZNFrom r t ∧ t.pc = s.pc ∧
      Encoded (.lsr o) (o.pick 0x4A 0x46 0x56 0x4E 0x5E) (o.pick 1 2 2 3 3) ∧
      Costs (o.pick 2 5 6 6 7) t) ∧
    (∃ t r, exec (.rol o) s = .next t ∧ Wrote s t o.target r [.C, .Z, .N] ∧
      r.toNat = (targetByte s o.target).toNat * 2 % 256 + (if s.flag .C then 1 else 0) ∧
      t.flag .C = decide (128 ≤ (targetByte s o.target).toNat) ∧ ZNFrom r t ∧ t.pc = s.pc ∧
      Encoded (.rol o) (o.pick 0x2A 0x26 0x36 0x2E 0x3E) (o.pick 1 2 2 3 3) ∧
      Costs (o.pick 2 5 6 6 7) t) ∧
    (∃ t r, exec (.ror o) s = .next t ∧ Wrote s t o.target r [.C, .Z, .N] ∧
      r.toNat = (targetByte s o.target).toNat / 2 + (if s.flag .C then 128 else 0) ∧
      t.flag .C = decide ((targetByte s o.target).toNat % 2 = 1) ∧ ZNFrom r t ∧ t.pc = s.pc ∧
      Encoded (.ror o) (o.pick 0x6A 0x66 0x76 0x6E 0x7E) (o.pick 1 2 2 3 3) ∧
      Costs (o.pick 2 5 6 6 7) t)

/-- R168's "nine ROLs restore v and C", and ROR undoes ROL: on the accumulator. -/
def Obligations.RotatesGoRound : Prop :=
  ∀ s : State,
    (∃ t u, exec (.rol .acc) s = .next t ∧ exec (.ror .acc) t = .next u ∧
      u.regA = s.regA ∧ u.flag .C = s.flag .C) ∧
    (∃ t : Nat → State, t 0 = s ∧ (∀ k, k < 9 → exec (.rol .acc) (t k) = .next (t (k + 1))) ∧
      (t 9).regA = s.regA ∧ (t 9).flag .C = s.flag .C)

/-! ## Branches, jumps, calls -/

/-- R170 to R178: each branch, its opcode and its condition; target (R107), PC and cycles taken and not
taken. That the page test is against the next instruction is the spec's decision D6 (log entry 7). -/
def Obligations.BranchesFollowTheirCondition : Prop :=
  ∀ (off : Byte) (s : State),
    ∀ b ∈ [ (Instr.bcc off, (0x90 : Byte), !s.flag .C), (Instr.bcs off, (0xB0 : Byte), s.flag .C),
            (Instr.beq off, (0xF0 : Byte), s.flag .Z), (Instr.bne off, (0xD0 : Byte), !s.flag .Z),
            (Instr.bmi off, (0x30 : Byte), s.flag .N), (Instr.bpl off, (0x10 : Byte), !s.flag .N),
            (Instr.bvc off, (0x50 : Byte), !s.flag .V), (Instr.bvs off, (0x70 : Byte), s.flag .V) ],
      ∃ t, exec b.1 s = .next t ∧ Encoded b.1 b.2.1 2 ∧ Frame [] [] [] s t ∧
        (b.2.2 = true → t.pc = s.pc + off.signExtend 16 ∧
          Costs (if t.pc &&& 0xFF00 = s.pc &&& 0xFF00 then 3 else 4) t) ∧
        (b.2.2 = false → t.pc = s.pc ∧ Costs 2 t)

/-- R180: JMP, absolute and indirect. -/
def Obligations.JmpGoesToItsTarget : Prop :=
  ∀ (o : JmpOperand) (s : State), ∃ t, exec (.jmp o) s = .next t ∧
    (∀ w, o = .abs w → t.pc = w) ∧ (∀ w, o = .ind w → t.pc = s.readWordJmpInd w) ∧
    Frame [] [] [] s t ∧ Encoded (.jmp o) (o.pick 0x4C 0x6C) 3 ∧ Costs (o.pick 3 5) t

/-- R181, R182, and its round-trip law, whatever PC is before the RTS. -/
def Obligations.CallAndReturn : Prop :=
  ∀ (target : Word) (s : State), s.mem.wf = true →
    (∃ t, exec (.jsr target) s = .next t ∧ t.pc = target ∧ t.regS = s.regS - 2 ∧
      t.read (stackAddr s.regS) = hi8 (s.pc - 1) ∧
      t.read (stackAddr (s.regS - 1)) = lo8 (s.pc - 1) ∧
      Frame [.S] [] [stackAddr s.regS, stackAddr (s.regS - 1)] s t ∧
      Encoded (.jsr target) 0x20 3 ∧ Costs 6 t) ∧
    (∃ t, exec .rts s = .next t ∧
      t.pc = wordOf (s.read (stackAddr (s.regS + 2))) (s.read (stackAddr (s.regS + 1))) + 1 ∧
      t.regS = s.regS + 2 ∧ Frame [.S] [] [] s t ∧ Encoded .rts 0x60 1 ∧ Costs 6 t) ∧
    ∀ a : Word, ∃ t u, exec (.jsr target) s = .next t ∧ exec .rts { t with pc := a } = .next u ∧
      u.pc = s.pc ∧ u.regS = s.regS

/-! ## The trap -/

/-- R190: BRK. PC is opaddr + 1, so the address pushed is PC + 1. -/
def Obligations.BrkTakesTheTrap : Prop :=
  ∀ s : State, s.mem.wf = true → ∃ t, exec .brk s = .next t ∧
    t.read (stackAddr s.regS) = hi8 (s.pc + 1) ∧
    t.read (stackAddr (s.regS - 1)) = lo8 (s.pc + 1) ∧
    t.read (stackAddr (s.regS - 2)) = s.regP ||| 0x30 ∧
    t.regS = s.regS - 3 ∧ t.flag .I = true ∧
    t.pc = wordOf (s.read 0xFFFF) (s.read 0xFFFE) ∧
    Frame [.S] [.I] [stackAddr s.regS, stackAddr (s.regS - 1), stackAddr (s.regS - 2)] s t ∧
    Encoded .brk 0x00 1 ∧ Costs 7 t

/-- R191: RTI, and its corner: BRK then RTI, in a state whose live P has B = 0 and U = 1 (the invariant),
continues two bytes after the BRK with P and S as they were, whatever PC is before the RTI. -/
def Obligations.RtiReturns : Prop :=
  ∀ s : State,
    (∃ t, exec .rti s = .next t ∧
      t.regP = s.read (stackAddr (s.regS + 1)) &&& 0xCF ||| 0x20 ∧
      t.pc = wordOf (s.read (stackAddr (s.regS + 3))) (s.read (stackAddr (s.regS + 2))) ∧
      t.regS = s.regS + 3 ∧ t.flag .B = false ∧ t.flag .U = true ∧
      Frame [.S] [.C, .Z, .I, .D, .B, .U, .V, .N] [] s t ∧ Encoded .rti 0x40 1 ∧ Costs 6 t) ∧
    ∀ a : Word, s.mem.wf = true → s.flag .B = false → s.flag .U = true →
      ∃ t u, exec .brk s = .next t ∧ exec .rti { t with pc := a } = .next u ∧
        u.pc = s.pc + 1 ∧ u.regP = s.regP ∧ u.regS = s.regS

/-! ## Flag instructions, NOP -/

/-- R192 to R198: each writes exactly one bit of P and nothing else. -/
def Obligations.FlagInstructions : Prop :=
  ∀ s : State,
    ∀ b ∈ [ (Instr.clc, (0x18 : Byte), Flag.C, false), (Instr.sec, (0x38 : Byte), Flag.C, true),
            (Instr.cli, (0x58 : Byte), Flag.I, false), (Instr.sei, (0x78 : Byte), Flag.I, true),
            (Instr.cld, (0xD8 : Byte), Flag.D, false), (Instr.sed, (0xF8 : Byte), Flag.D, true),
            (Instr.clv, (0xB8 : Byte), Flag.V, false) ],
      ∃ t, exec b.1 s = .next t ∧ Encoded b.1 b.2.1 1 ∧ t.flag b.2.2.1 = b.2.2.2 ∧
        Frame [] [b.2.2.1] [] s t ∧ t.pc = s.pc ∧ Costs 2 t

/-- R199: only the cycle budget is written. -/
def Obligations.NopDoesNothing : Prop :=
  (∀ s : State, exec .nop s = .next { s with pendingCycles := 1 }) ∧ Encoded .nop 0xEA 1

/-! ## The host -/

/-- R273, R272: which strings `load_rom` rejects as InvalidHexInput, whitespace removed first (log entry 6 for
which characters that is); that the empty string is one of them is the spec's decision D16 (log entry 7).
The other rejection, of too many pairs, is in `LoadRomAcceptsDigitPairs`. A rejected load has no next state:
nothing is written. -/
def Obligations.LoadRomRejectsBadHex : Prop :=
  ∀ (text : String) (start : Word) (s : State),
    (let digits := text.toList.filter (fun c => !c.isWhitespace)
     loadRom text start s = .error .invalidHexInput ↔
       digits = [] ∨ digits.length % 2 = 1 ∨ ∃ c ∈ digits, c ∉ hexDigits)

/-- R272 (limits by the spec's decision D16, log entry 7): a load that succeeds writes the bytes of the
digit pairs, first pair first, each pair high digit first, from 0x8000 up and the start address into the reset vector, leaves
every other cell, and changes nothing but memory. Which characters are whitespace is log entry 6. -/
def Obligations.LoadRomWritesImageAndVector : Prop :=
  ∀ (text : String) (start : Word) (s s' : State), s.mem.wf = true →
    loadRom text start s = .ok s' →
    ∃ bytes, parseImage text = some bytes ∧ 0 < bytes.length ∧ bytes.length ≤ 32762 ∧
      (let digits := text.toList.filter (fun c => !c.isWhitespace)
       digits.length = 2 * bytes.length ∧
       ∀ (k : Nat) (b : Byte), bytes[k]? = some b → ∃ h l, digits[2 * k]? = some h ∧
         digits[2 * k + 1]? = some l ∧ b.toNat = 16 * digitValue h + digitValue l) ∧
      (∀ (k : Nat) (b : Byte), bytes[k]? = some b → s'.read (BitVec.ofNat 16 (0x8000 + k)) = b) ∧
      s'.read 0xFFFC = lo8 start ∧ s'.read 0xFFFD = hi8 start ∧
      (∀ a : Word, a ≠ 0xFFFC → a ≠ 0xFFFD →
        ¬ (0x8000 ≤ a.toNat ∧ a.toNat < 0x8000 + bytes.length) → s'.read a = s.read a) ∧
      { s' with mem := s.mem } = s ∧ s'.mem.wf = true

/-- R253, R252: a load before the first tick decides where execution starts; one after it does not move PC. -/
def Obligations.LoadRomSetsTheFirstFetch : Prop :=
  ∀ (text : String) (start : Word) (s s' : State), s.mem.wf = true →
    loadRom text start s = .ok s' →
    (s.resetDone = false → step s' = step { s'.resetSequence with pc := start }) ∧
    (s.resetDone = true → s'.pc = s.pc ∧ s'.afterReset = s')

/-- R270, R275, R47: the three memory ports show their ranges in address order, and every address lies in
exactly one row of the region table. -/
def Obligations.ObservationPorts : Prop :=
  (∀ (s : State) (k : Nat),
    (getRam s)[k]? = (if k < 32256 then some (s.read (BitVec.ofNat 16 (0x0200 + k))) else none) ∧
    (getRom s)[k]? = (if k < 32762 then some (s.read (BitVec.ofNat 16 (0x8000 + k))) else none) ∧
    (getStack s)[k]? = (if k < 256 then some (s.read (BitVec.ofNat 16 (0x0100 + k))) else none)) ∧
  (∀ a : Word, (regionTable.filter fun r => decide (r.first ≤ a ∧ a ≤ r.last)).length = 1)

/-- R277, R278: the walk begins at the start address and each step of it goes on after the instruction; the
mapping has one line per address of the walk, so at most n lines, and the line of an address is the text
of the instruction there. That n is a natural number is the model's choice (log entry 12). -/
def Obligations.DisassemblyMapping : Prop :=
  ∀ (s : State) (start : Word) (n : Nat),
    (walk s n start).length = n ∧
    (0 < n → ((walk s n start)[0]?).map Prod.fst = some start) ∧
    (∀ (k : Nat) (d e : Word × String), (walk s n start)[k]? = some d →
      (walk s n start)[k + 1]? = some e → e.1 = d.1 + BitVec.ofNat 16 (instrAt s d.1).length) ∧
    ((getDisassemblyRange s start n).map Prod.fst).Nodup ∧
    (∀ a : Word, a ∈ (getDisassemblyRange s start n).map Prod.fst ↔
      a ∈ (walk s n start).map Prod.fst) ∧
    (∀ e ∈ getDisassemblyRange s start n, e.2 = lineAt s e.1)

/-- R272 (limits by the spec's decision D16, log entry 7): when a load of digit pairs succeeds. Pairs of
hex digits alone, whitespace removed, are accepted for 1 to 32 762 bytes, and rejected as too long for more; a rejected load
has no next state. Which characters are whitespace is log entry 6. -/
def Obligations.LoadRomAcceptsDigitPairs : Prop :=
  ∀ (text : String) (start : Word) (s : State),
    let digits := text.toList.filter (fun c => !c.isWhitespace)
    digits ≠ [] → digits.length % 2 = 0 → (∀ c ∈ digits, c ∈ hexDigits) →
    (digits.length / 2 ≤ 32762 → ∃ s', loadRom text start s = .ok s') ∧
    (32762 < digits.length / 2 → loadRom text start s = .error .imageTooLong)
end

