-- ==== Sys2Proof/Laws/Bits.lean ====
section
/-! SUPPORT. The byte-order and bit-field helpers as numbers, and that splitting and joining are inverse. -/

namespace Sys2Proof.Machine

theorem wordOf_toNat (h l : Byte) : (wordOf h l).toNat = h.toNat * 256 + l.toNat := by
  have hl := l.isLt
  simp only [wordOf, BitVec.toNat_append]
  rw [← Nat.shiftLeft_add_eq_or_of_lt hl, Nat.shiftLeft_eq]

theorem hi8_toNat (w : Word) : (hi8 w).toNat = w.toNat / 256 := by
  have hw := w.isLt
  simp only [hi8, BitVec.extractLsb'_toNat, Nat.shiftRight_eq_div_pow]
  omega

theorem lo8_toNat (w : Word) : (lo8 w).toNat = w.toNat % 256 := by
  simp [lo8, BitVec.extractLsb'_toNat]

@[simp] theorem wordOf_hi8_lo8 (w : Word) : wordOf (hi8 w) (lo8 w) = w := by
  apply BitVec.eq_of_toNat_eq
  rw [wordOf_toNat, hi8_toNat, lo8_toNat]
  omega

@[simp] theorem hi8_wordOf (h l : Byte) : hi8 (wordOf h l) = h := by
  apply BitVec.eq_of_toNat_eq
  have := l.isLt
  rw [hi8_toNat, wordOf_toNat]
  omega

@[simp] theorem lo8_wordOf (h l : Byte) : lo8 (wordOf h l) = l := by
  apply BitVec.eq_of_toNat_eq
  have := l.isLt
  rw [lo8_toNat, wordOf_toNat]
  omega

theorem zext16_toNat (b : Byte) : (zext16 b).toNat = b.toNat := by
  have := b.isLt
  simp only [zext16, BitVec.toNat_setWidth]
  omega

theorem sext16_toNat (b : Byte) :
    (sext16 b).toNat = if b.toNat < 128 then b.toNat else 65280 + b.toNat := by
  revert b
  decide

/-- The page of an address as a number. -/
theorem page_toNat (a : Word) : (page a).toNat = a.toNat / 256 * 256 := by
  have ha := a.isLt
  simp only [page, BitVec.toNat_and]
  apply Nat.eq_of_testBit_eq
  intro i
  rw [show a.toNat / 256 * 256 = (a.toNat >>> 8) <<< 8 by
    rw [Nat.shiftRight_eq_div_pow, Nat.shiftLeft_eq]]
  rw [show (0xFF00 : Word).toNat = (2 ^ 8 - 1) <<< 8 by rfl]
  simp only [Nat.testBit_and, Nat.testBit_shiftLeft, Nat.testBit_shiftRight, Nat.testBit_two_pow_sub_one]
  by_cases h8 : 8 ≤ i
  · by_cases h16 : i < 16
    · have h1 : i - 8 < 8 := by omega
      simp [h8, h1, show 8 + (i - 8) = i by omega]
    · have h2 : a.toNat.testBit i = false :=
        Nat.testBit_lt_two_pow (lt_of_lt_of_le ha (Nat.pow_le_pow_right (by omega) (by omega)))
      simp [h2, show 8 + (i - 8) = i by omega]
  · simp [h8]

/-- Two addresses are on one page when their high bytes agree. -/
theorem page_eq_iff (a b : Word) : page a = page b ↔ a.toNat / 256 = b.toNat / 256 := by
  constructor
  · intro h
    have := congrArg BitVec.toNat h
    rw [page_toNat, page_toNat] at this
    omega
  · intro h
    apply BitVec.eq_of_toNat_eq
    rw [page_toNat, page_toNat, h]

end Sys2Proof.Machine
end

