-- ==== Sys2Proof/Laws/Flags.lean ====
section
/-! SUPPORT. The flags of each status byte the machine forms, and that a byte is its eight flags. -/

namespace Sys2Proof.Machine

theorem Flag.bit_lt (f : Flag) : f.bit < 8 := by cases f <;> decide

theorem Flag.bit_inj (f g : Flag) (h : f.bit = g.bit) : f = g := by
  cases f <;> cases g <;> first | rfl | (exact absurd h (by decide))

/-- The mask of a flag has that flag set and no other. -/
theorem flag_mask (f g : Flag) : flag (1#8 <<< f.bit) g = decide (g = f) := by
  cases f <;> cases g <;> rfl

/-- One flag written: that flag is the bit written, every other is as before. -/
@[simp] theorem flag_setFlag (p : Byte) (f : Flag) (b : Bool) (g : Flag) :
    flag (setFlag p f b) g = if g = f then b else flag p g := by
  have hm := flag_mask f g
  have hb := g.bit_lt
  unfold setFlag
  unfold flag at *
  cases b
  · rw [if_neg (by simp), BitVec.getLsbD_and, BitVec.getLsbD_not, hm]
    by_cases h : g = f <;> simp [h, hb]
  · rw [if_pos rfl, BitVec.getLsbD_or, hm]
    by_cases h : g = f <;> simp [h]

/-- `SetZN(r)` writes Z and N and no other flag. -/
theorem flag_setZN (p r : Byte) (g : Flag) :
    flag (setZN p r) g =
      if g = .N then r.getLsbD 7 else if g = .Z then r == 0 else flag p g := by
  simp [setZN]

theorem flag_pushedStatus (p : Byte) (g : Flag) :
    flag (pushedStatus p) g = if g = .B ∨ g = .U then true else flag p g := by
  cases g <;> simp [flag, pushedStatus, Flag.bit]

theorem flag_pulledStatus (v : Byte) (g : Flag) :
    flag (pulledStatus v) g = if g = .B then false else if g = .U then true else flag v g := by
  cases g <;> simp [flag, pulledStatus, Flag.bit]

theorem flag_sumStatus (p : Byte) (r : Sum) (g : Flag) :
    flag (sumStatus p r) g =
      if g = .N then r.result.getLsbD 7
      else if g = .Z then r.result == 0
      else if g = .V then r.overflow
      else if g = .C then r.carry
      else flag p g := by
  simp [sumStatus, flag_setZN]

theorem flag_compareStatus (p r m : Byte) (g : Flag) :
    flag (compareStatus p r m) g =
      if g = .N then (r - m).getLsbD 7
      else if g = .Z then r == m
      else if g = .C then decide (m.toNat ≤ r.toNat)
      else flag p g := by
  simp [compareStatus]

theorem flag_bitStatus (p a m : Byte) (g : Flag) :
    flag (bitStatus p a m) g =
      if g = .V then m.getLsbD 6
      else if g = .N then m.getLsbD 7
      else if g = .Z then (a &&& m) == 0
      else flag p g := by
  simp [bitStatus]

theorem flag_shiftStatus (p : Byte) (r : Shifted) (g : Flag) :
    flag (shiftStatus p r) g =
      if g = .N then r.result.getLsbD 7
      else if g = .Z then r.result == 0
      else if g = .C then r.out
      else flag p g := by
  simp [shiftStatus, flag_setZN]

/-- A status byte is its eight flags. -/
theorem status_ext (p q : Byte) (h : ∀ f, flag p f = flag q f) : p = q := by
  apply BitVec.eq_of_getLsbD_eq
  intro i hi
  have hc := h .C; have hz := h .Z; have hI := h .I; have hd := h .D
  have hb := h .B; have hu := h .U; have hv := h .V; have hn := h .N
  simp only [flag, Flag.bit] at hc hz hI hd hb hu hv hn
  interval_cases i <;> assumption

/-- Bit 7 of a byte as a number. -/
theorem getLsbD_seven (r : Byte) : r.getLsbD 7 = decide (128 ≤ r.toNat) := by
  revert r
  decide

/-- The zero test of a byte as a number. -/
theorem beq_zero (r : Byte) : (r == 0) = decide (r.toNat = 0) := by
  revert r
  decide

end Sys2Proof.Machine
end

