-- ==== Sys2Proof/Laws/State.lean ====
section
/-! SUPPORT. One lemma per field per update of State, and the reads and flags that an update leaves alone. -/

namespace Sys2Proof.Machine

/-! ### `setA` -/

@[simp] theorem State.setA_regA (s : State) (v : Byte) : (s.setA v).regA = v := rfl
@[simp] theorem State.setA_regX (s : State) (v : Byte) : (s.setA v).regX = s.regX := rfl
@[simp] theorem State.setA_regY (s : State) (v : Byte) : (s.setA v).regY = s.regY := rfl
@[simp] theorem State.setA_regS (s : State) (v : Byte) : (s.setA v).regS = s.regS := rfl
@[simp] theorem State.setA_pc (s : State) (v : Byte) : (s.setA v).pc = s.pc := rfl
@[simp] theorem State.setA_regP (s : State) (v : Byte) : (s.setA v).regP = s.regP := rfl
@[simp] theorem State.setA_pendingCycles (s : State) (v : Byte) : (s.setA v).pendingCycles = s.pendingCycles := rfl
@[simp] theorem State.setA_resetDone (s : State) (v : Byte) : (s.setA v).resetDone = s.resetDone := rfl
@[simp] theorem State.setA_mem (s : State) (v : Byte) : (s.setA v).mem = s.mem := rfl
@[simp] theorem State.setA_unknownNotes (s : State) (v : Byte) : (s.setA v).unknownNotes = s.unknownNotes := rfl
@[simp] theorem State.setA_read (s : State) (v : Byte) (b : Word) : (s.setA v).read b = s.read b := rfl
@[simp] theorem State.setA_flag (s : State) (v : Byte) (f : Flag) : (s.setA v).flag f = s.flag f := rfl

/-! ### `setX` -/

@[simp] theorem State.setX_regA (s : State) (v : Byte) : (s.setX v).regA = s.regA := rfl
@[simp] theorem State.setX_regX (s : State) (v : Byte) : (s.setX v).regX = v := rfl
@[simp] theorem State.setX_regY (s : State) (v : Byte) : (s.setX v).regY = s.regY := rfl
@[simp] theorem State.setX_regS (s : State) (v : Byte) : (s.setX v).regS = s.regS := rfl
@[simp] theorem State.setX_pc (s : State) (v : Byte) : (s.setX v).pc = s.pc := rfl
@[simp] theorem State.setX_regP (s : State) (v : Byte) : (s.setX v).regP = s.regP := rfl
@[simp] theorem State.setX_pendingCycles (s : State) (v : Byte) : (s.setX v).pendingCycles = s.pendingCycles := rfl
@[simp] theorem State.setX_resetDone (s : State) (v : Byte) : (s.setX v).resetDone = s.resetDone := rfl
@[simp] theorem State.setX_mem (s : State) (v : Byte) : (s.setX v).mem = s.mem := rfl
@[simp] theorem State.setX_unknownNotes (s : State) (v : Byte) : (s.setX v).unknownNotes = s.unknownNotes := rfl
@[simp] theorem State.setX_read (s : State) (v : Byte) (b : Word) : (s.setX v).read b = s.read b := rfl
@[simp] theorem State.setX_flag (s : State) (v : Byte) (f : Flag) : (s.setX v).flag f = s.flag f := rfl

/-! ### `setY` -/

@[simp] theorem State.setY_regA (s : State) (v : Byte) : (s.setY v).regA = s.regA := rfl
@[simp] theorem State.setY_regX (s : State) (v : Byte) : (s.setY v).regX = s.regX := rfl
@[simp] theorem State.setY_regY (s : State) (v : Byte) : (s.setY v).regY = v := rfl
@[simp] theorem State.setY_regS (s : State) (v : Byte) : (s.setY v).regS = s.regS := rfl
@[simp] theorem State.setY_pc (s : State) (v : Byte) : (s.setY v).pc = s.pc := rfl
@[simp] theorem State.setY_regP (s : State) (v : Byte) : (s.setY v).regP = s.regP := rfl
@[simp] theorem State.setY_pendingCycles (s : State) (v : Byte) : (s.setY v).pendingCycles = s.pendingCycles := rfl
@[simp] theorem State.setY_resetDone (s : State) (v : Byte) : (s.setY v).resetDone = s.resetDone := rfl
@[simp] theorem State.setY_mem (s : State) (v : Byte) : (s.setY v).mem = s.mem := rfl
@[simp] theorem State.setY_unknownNotes (s : State) (v : Byte) : (s.setY v).unknownNotes = s.unknownNotes := rfl
@[simp] theorem State.setY_read (s : State) (v : Byte) (b : Word) : (s.setY v).read b = s.read b := rfl
@[simp] theorem State.setY_flag (s : State) (v : Byte) (f : Flag) : (s.setY v).flag f = s.flag f := rfl

/-! ### `setS` -/

@[simp] theorem State.setS_regA (s : State) (v : Byte) : (s.setS v).regA = s.regA := rfl
@[simp] theorem State.setS_regX (s : State) (v : Byte) : (s.setS v).regX = s.regX := rfl
@[simp] theorem State.setS_regY (s : State) (v : Byte) : (s.setS v).regY = s.regY := rfl
@[simp] theorem State.setS_regS (s : State) (v : Byte) : (s.setS v).regS = v := rfl
@[simp] theorem State.setS_pc (s : State) (v : Byte) : (s.setS v).pc = s.pc := rfl
@[simp] theorem State.setS_regP (s : State) (v : Byte) : (s.setS v).regP = s.regP := rfl
@[simp] theorem State.setS_pendingCycles (s : State) (v : Byte) : (s.setS v).pendingCycles = s.pendingCycles := rfl
@[simp] theorem State.setS_resetDone (s : State) (v : Byte) : (s.setS v).resetDone = s.resetDone := rfl
@[simp] theorem State.setS_mem (s : State) (v : Byte) : (s.setS v).mem = s.mem := rfl
@[simp] theorem State.setS_unknownNotes (s : State) (v : Byte) : (s.setS v).unknownNotes = s.unknownNotes := rfl
@[simp] theorem State.setS_read (s : State) (v : Byte) (b : Word) : (s.setS v).read b = s.read b := rfl
@[simp] theorem State.setS_flag (s : State) (v : Byte) (f : Flag) : (s.setS v).flag f = s.flag f := rfl

/-! ### `setP` -/

@[simp] theorem State.setP_regA (s : State) (v : Byte) : (s.setP v).regA = s.regA := rfl
@[simp] theorem State.setP_regX (s : State) (v : Byte) : (s.setP v).regX = s.regX := rfl
@[simp] theorem State.setP_regY (s : State) (v : Byte) : (s.setP v).regY = s.regY := rfl
@[simp] theorem State.setP_regS (s : State) (v : Byte) : (s.setP v).regS = s.regS := rfl
@[simp] theorem State.setP_pc (s : State) (v : Byte) : (s.setP v).pc = s.pc := rfl
@[simp] theorem State.setP_regP (s : State) (v : Byte) : (s.setP v).regP = v := rfl
@[simp] theorem State.setP_pendingCycles (s : State) (v : Byte) : (s.setP v).pendingCycles = s.pendingCycles := rfl
@[simp] theorem State.setP_resetDone (s : State) (v : Byte) : (s.setP v).resetDone = s.resetDone := rfl
@[simp] theorem State.setP_mem (s : State) (v : Byte) : (s.setP v).mem = s.mem := rfl
@[simp] theorem State.setP_unknownNotes (s : State) (v : Byte) : (s.setP v).unknownNotes = s.unknownNotes := rfl
@[simp] theorem State.setP_read (s : State) (v : Byte) (b : Word) : (s.setP v).read b = s.read b := rfl
@[simp] theorem State.setP_flag (s : State) (v : Byte) (f : Flag) : (s.setP v).flag f = Machine.flag v f := rfl

/-! ### `setPc` -/

@[simp] theorem State.setPc_regA (s : State) (a : Word) : (s.setPc a).regA = s.regA := rfl
@[simp] theorem State.setPc_regX (s : State) (a : Word) : (s.setPc a).regX = s.regX := rfl
@[simp] theorem State.setPc_regY (s : State) (a : Word) : (s.setPc a).regY = s.regY := rfl
@[simp] theorem State.setPc_regS (s : State) (a : Word) : (s.setPc a).regS = s.regS := rfl
@[simp] theorem State.setPc_pc (s : State) (a : Word) : (s.setPc a).pc = a := rfl
@[simp] theorem State.setPc_regP (s : State) (a : Word) : (s.setPc a).regP = s.regP := rfl
@[simp] theorem State.setPc_pendingCycles (s : State) (a : Word) : (s.setPc a).pendingCycles = s.pendingCycles := rfl
@[simp] theorem State.setPc_resetDone (s : State) (a : Word) : (s.setPc a).resetDone = s.resetDone := rfl
@[simp] theorem State.setPc_mem (s : State) (a : Word) : (s.setPc a).mem = s.mem := rfl
@[simp] theorem State.setPc_unknownNotes (s : State) (a : Word) : (s.setPc a).unknownNotes = s.unknownNotes := rfl
@[simp] theorem State.setPc_read (s : State) (a : Word) (b : Word) : (s.setPc a).read b = s.read b := rfl
@[simp] theorem State.setPc_flag (s : State) (a : Word) (f : Flag) : (s.setPc a).flag f = s.flag f := rfl

/-! ### `setPending` -/

@[simp] theorem State.setPending_regA (s : State) (n : Nat) : (s.setPending n).regA = s.regA := rfl
@[simp] theorem State.setPending_regX (s : State) (n : Nat) : (s.setPending n).regX = s.regX := rfl
@[simp] theorem State.setPending_regY (s : State) (n : Nat) : (s.setPending n).regY = s.regY := rfl
@[simp] theorem State.setPending_regS (s : State) (n : Nat) : (s.setPending n).regS = s.regS := rfl
@[simp] theorem State.setPending_pc (s : State) (n : Nat) : (s.setPending n).pc = s.pc := rfl
@[simp] theorem State.setPending_regP (s : State) (n : Nat) : (s.setPending n).regP = s.regP := rfl
@[simp] theorem State.setPending_pendingCycles (s : State) (n : Nat) : (s.setPending n).pendingCycles = n := rfl
@[simp] theorem State.setPending_resetDone (s : State) (n : Nat) : (s.setPending n).resetDone = s.resetDone := rfl
@[simp] theorem State.setPending_mem (s : State) (n : Nat) : (s.setPending n).mem = s.mem := rfl
@[simp] theorem State.setPending_unknownNotes (s : State) (n : Nat) : (s.setPending n).unknownNotes = s.unknownNotes := rfl
@[simp] theorem State.setPending_read (s : State) (n : Nat) (b : Word) : (s.setPending n).read b = s.read b := rfl
@[simp] theorem State.setPending_flag (s : State) (n : Nat) (f : Flag) : (s.setPending n).flag f = s.flag f := rfl

/-! ### `write` -/

@[simp] theorem State.write_regA (s : State) (a : Word) (v : Byte) :
    (s.write a v).regA = s.regA := rfl
@[simp] theorem State.write_regX (s : State) (a : Word) (v : Byte) :
    (s.write a v).regX = s.regX := rfl
@[simp] theorem State.write_regY (s : State) (a : Word) (v : Byte) :
    (s.write a v).regY = s.regY := rfl
@[simp] theorem State.write_regS (s : State) (a : Word) (v : Byte) :
    (s.write a v).regS = s.regS := rfl
@[simp] theorem State.write_pc (s : State) (a : Word) (v : Byte) :
    (s.write a v).pc = s.pc := rfl
@[simp] theorem State.write_regP (s : State) (a : Word) (v : Byte) :
    (s.write a v).regP = s.regP := rfl
@[simp] theorem State.write_pendingCycles (s : State) (a : Word) (v : Byte) :
    (s.write a v).pendingCycles = s.pendingCycles := rfl
@[simp] theorem State.write_resetDone (s : State) (a : Word) (v : Byte) :
    (s.write a v).resetDone = s.resetDone := rfl
@[simp] theorem State.write_mem (s : State) (a : Word) (v : Byte) :
    (s.write a v).mem = cellWrite s.mem a.toNat v := rfl
@[simp] theorem State.write_unknownNotes (s : State) (a : Word) (v : Byte) :
    (s.write a v).unknownNotes = s.unknownNotes := rfl
@[simp] theorem State.write_flag (s : State) (a : Word) (v : Byte) (f : Flag) :
    (s.write a v).flag f = s.flag f := rfl

/-! ### `putFlag` -/

@[simp] theorem State.putFlag_regA (s : State) (f : Flag) (b : Bool) :
    (s.putFlag f b).regA = s.regA := rfl
@[simp] theorem State.putFlag_regX (s : State) (f : Flag) (b : Bool) :
    (s.putFlag f b).regX = s.regX := rfl
@[simp] theorem State.putFlag_regY (s : State) (f : Flag) (b : Bool) :
    (s.putFlag f b).regY = s.regY := rfl
@[simp] theorem State.putFlag_regS (s : State) (f : Flag) (b : Bool) :
    (s.putFlag f b).regS = s.regS := rfl
@[simp] theorem State.putFlag_pc (s : State) (f : Flag) (b : Bool) :
    (s.putFlag f b).pc = s.pc := rfl
@[simp] theorem State.putFlag_regP (s : State) (f : Flag) (b : Bool) :
    (s.putFlag f b).regP = setFlag s.regP f b := rfl
@[simp] theorem State.putFlag_pendingCycles (s : State) (f : Flag) (b : Bool) :
    (s.putFlag f b).pendingCycles = s.pendingCycles := rfl
@[simp] theorem State.putFlag_resetDone (s : State) (f : Flag) (b : Bool) :
    (s.putFlag f b).resetDone = s.resetDone := rfl
@[simp] theorem State.putFlag_mem (s : State) (f : Flag) (b : Bool) :
    (s.putFlag f b).mem = s.mem := rfl
@[simp] theorem State.putFlag_unknownNotes (s : State) (f : Flag) (b : Bool) :
    (s.putFlag f b).unknownNotes = s.unknownNotes := rfl
@[simp] theorem State.putFlag_read (s : State) (f : Flag) (b : Bool) (a : Word) :
    (s.putFlag f b).read a = s.read a := rfl

/-! ### `putZN` -/

@[simp] theorem State.putZN_regA (s : State) (r : Byte) :
    (s.putZN r).regA = s.regA := rfl
@[simp] theorem State.putZN_regX (s : State) (r : Byte) :
    (s.putZN r).regX = s.regX := rfl
@[simp] theorem State.putZN_regY (s : State) (r : Byte) :
    (s.putZN r).regY = s.regY := rfl
@[simp] theorem State.putZN_regS (s : State) (r : Byte) :
    (s.putZN r).regS = s.regS := rfl
@[simp] theorem State.putZN_pc (s : State) (r : Byte) :
    (s.putZN r).pc = s.pc := rfl
@[simp] theorem State.putZN_regP (s : State) (r : Byte) :
    (s.putZN r).regP = setZN s.regP r := rfl
@[simp] theorem State.putZN_pendingCycles (s : State) (r : Byte) :
    (s.putZN r).pendingCycles = s.pendingCycles := rfl
@[simp] theorem State.putZN_resetDone (s : State) (r : Byte) :
    (s.putZN r).resetDone = s.resetDone := rfl
@[simp] theorem State.putZN_mem (s : State) (r : Byte) :
    (s.putZN r).mem = s.mem := rfl
@[simp] theorem State.putZN_unknownNotes (s : State) (r : Byte) :
    (s.putZN r).unknownNotes = s.unknownNotes := rfl
@[simp] theorem State.putZN_read (s : State) (r : Byte) (a : Word) :
    (s.putZN r).read a = s.read a := rfl

/-! ### `push` -/

@[simp] theorem State.push_regA (s : State) (v : Byte) :
    (s.push v).regA = s.regA := rfl
@[simp] theorem State.push_regX (s : State) (v : Byte) :
    (s.push v).regX = s.regX := rfl
@[simp] theorem State.push_regY (s : State) (v : Byte) :
    (s.push v).regY = s.regY := rfl
@[simp] theorem State.push_regS (s : State) (v : Byte) :
    (s.push v).regS = s.regS - 1 := rfl
@[simp] theorem State.push_pc (s : State) (v : Byte) :
    (s.push v).pc = s.pc := rfl
@[simp] theorem State.push_regP (s : State) (v : Byte) :
    (s.push v).regP = s.regP := rfl
@[simp] theorem State.push_pendingCycles (s : State) (v : Byte) :
    (s.push v).pendingCycles = s.pendingCycles := rfl
@[simp] theorem State.push_resetDone (s : State) (v : Byte) :
    (s.push v).resetDone = s.resetDone := rfl
@[simp] theorem State.push_mem (s : State) (v : Byte) :
    (s.push v).mem = cellWrite s.mem (stackAddr s.regS).toNat v := rfl
@[simp] theorem State.push_unknownNotes (s : State) (v : Byte) :
    (s.push v).unknownNotes = s.unknownNotes := rfl
@[simp] theorem State.push_flag (s : State) (v : Byte) (f : Flag) :
    (s.push v).flag f = s.flag f := rfl

/-! ### `popped` -/

@[simp] theorem State.popped_regA (s : State) :
    s.popped.regA = s.regA := rfl
@[simp] theorem State.popped_regX (s : State) :
    s.popped.regX = s.regX := rfl
@[simp] theorem State.popped_regY (s : State) :
    s.popped.regY = s.regY := rfl
@[simp] theorem State.popped_regS (s : State) :
    s.popped.regS = s.regS + 1 := rfl
@[simp] theorem State.popped_pc (s : State) :
    s.popped.pc = s.pc := rfl
@[simp] theorem State.popped_regP (s : State) :
    s.popped.regP = s.regP := rfl
@[simp] theorem State.popped_pendingCycles (s : State) :
    s.popped.pendingCycles = s.pendingCycles := rfl
@[simp] theorem State.popped_resetDone (s : State) :
    s.popped.resetDone = s.resetDone := rfl
@[simp] theorem State.popped_mem (s : State) :
    s.popped.mem = s.mem := rfl
@[simp] theorem State.popped_unknownNotes (s : State) :
    s.popped.unknownNotes = s.unknownNotes := rfl
@[simp] theorem State.popped_read (s : State) (a : Word) : s.popped.read a = s.read a := rfl
@[simp] theorem State.popped_flag (s : State) (f : Flag) : s.popped.flag f = s.flag f := rfl

/-! ### `noteUnknown` -/

@[simp] theorem State.noteUnknown_regA (s : State) (a : Word) (b : Byte) :
    (s.noteUnknown a b).regA = s.regA := rfl
@[simp] theorem State.noteUnknown_regX (s : State) (a : Word) (b : Byte) :
    (s.noteUnknown a b).regX = s.regX := rfl
@[simp] theorem State.noteUnknown_regY (s : State) (a : Word) (b : Byte) :
    (s.noteUnknown a b).regY = s.regY := rfl
@[simp] theorem State.noteUnknown_regS (s : State) (a : Word) (b : Byte) :
    (s.noteUnknown a b).regS = s.regS := rfl
@[simp] theorem State.noteUnknown_pc (s : State) (a : Word) (b : Byte) :
    (s.noteUnknown a b).pc = s.pc := rfl
@[simp] theorem State.noteUnknown_regP (s : State) (a : Word) (b : Byte) :
    (s.noteUnknown a b).regP = s.regP := rfl
@[simp] theorem State.noteUnknown_pendingCycles (s : State) (a : Word) (b : Byte) :
    (s.noteUnknown a b).pendingCycles = s.pendingCycles := rfl
@[simp] theorem State.noteUnknown_resetDone (s : State) (a : Word) (b : Byte) :
    (s.noteUnknown a b).resetDone = s.resetDone := rfl
@[simp] theorem State.noteUnknown_mem (s : State) (a : Word) (b : Byte) :
    (s.noteUnknown a b).mem = s.mem := rfl
@[simp] theorem State.noteUnknown_unknownNotes (s : State) (a : Word) (b : Byte) :
    (s.noteUnknown a b).unknownNotes = { addr := a, byte := b } :: s.unknownNotes := rfl
@[simp] theorem State.noteUnknown_read (s : State) (a : Word) (b : Byte) (c : Word) :
    (s.noteUnknown a b).read c = s.read c := rfl
@[simp] theorem State.noteUnknown_flag (s : State) (a : Word) (b : Byte) (f : Flag) :
    (s.noteUnknown a b).flag f = s.flag f := rfl

/-! ### `resetSequence` -/

@[simp] theorem State.resetSequence_regA (s : State) :
    s.resetSequence.regA = Config.axyReset := rfl
@[simp] theorem State.resetSequence_regX (s : State) :
    s.resetSequence.regX = Config.axyReset := rfl
@[simp] theorem State.resetSequence_regY (s : State) :
    s.resetSequence.regY = Config.axyReset := rfl
@[simp] theorem State.resetSequence_regS (s : State) :
    s.resetSequence.regS = Config.sReset := rfl
@[simp] theorem State.resetSequence_pc (s : State) :
    s.resetSequence.pc = s.readWord Config.resetVector := rfl
@[simp] theorem State.resetSequence_regP (s : State) :
    s.resetSequence.regP = Config.pReset := rfl
@[simp] theorem State.resetSequence_pendingCycles (s : State) :
    s.resetSequence.pendingCycles = s.pendingCycles := rfl
@[simp] theorem State.resetSequence_resetDone (s : State) :
    s.resetSequence.resetDone = true := rfl
@[simp] theorem State.resetSequence_mem (s : State) :
    s.resetSequence.mem = s.mem := rfl
@[simp] theorem State.resetSequence_unknownNotes (s : State) :
    s.resetSequence.unknownNotes = s.unknownNotes := rfl
@[simp] theorem State.resetSequence_read (s : State) (a : Word) :
    s.resetSequence.read a = s.read a := rfl

/-! ### `pushWord` -/

@[simp] theorem State.pushWord_regA (s : State) (w : Word) :
    (s.pushWord w).regA = s.regA := by simp [State.pushWord]
@[simp] theorem State.pushWord_regX (s : State) (w : Word) :
    (s.pushWord w).regX = s.regX := by simp [State.pushWord]
@[simp] theorem State.pushWord_regY (s : State) (w : Word) :
    (s.pushWord w).regY = s.regY := by simp [State.pushWord]
@[simp] theorem State.pushWord_regS (s : State) (w : Word) :
    (s.pushWord w).regS = s.regS - 1 - 1 := by simp [State.pushWord]
@[simp] theorem State.pushWord_pc (s : State) (w : Word) :
    (s.pushWord w).pc = s.pc := by simp [State.pushWord]
@[simp] theorem State.pushWord_regP (s : State) (w : Word) :
    (s.pushWord w).regP = s.regP := by simp [State.pushWord]
@[simp] theorem State.pushWord_pendingCycles (s : State) (w : Word) :
    (s.pushWord w).pendingCycles = s.pendingCycles := by simp [State.pushWord]
@[simp] theorem State.pushWord_resetDone (s : State) (w : Word) :
    (s.pushWord w).resetDone = s.resetDone := by simp [State.pushWord]
@[simp] theorem State.pushWord_unknownNotes (s : State) (w : Word) :
    (s.pushWord w).unknownNotes = s.unknownNotes := by simp [State.pushWord]

/-! ### `poppedWord` -/

@[simp] theorem State.poppedWord_regA (s : State) :
    s.poppedWord.regA = s.regA := by simp [State.poppedWord]
@[simp] theorem State.poppedWord_regX (s : State) :
    s.poppedWord.regX = s.regX := by simp [State.poppedWord]
@[simp] theorem State.poppedWord_regY (s : State) :
    s.poppedWord.regY = s.regY := by simp [State.poppedWord]
@[simp] theorem State.poppedWord_regS (s : State) :
    s.poppedWord.regS = s.regS + 1 + 1 := by simp [State.poppedWord]
@[simp] theorem State.poppedWord_pc (s : State) :
    s.poppedWord.pc = s.pc := by simp [State.poppedWord]
@[simp] theorem State.poppedWord_regP (s : State) :
    s.poppedWord.regP = s.regP := by simp [State.poppedWord]
@[simp] theorem State.poppedWord_pendingCycles (s : State) :
    s.poppedWord.pendingCycles = s.pendingCycles := by simp [State.poppedWord]
@[simp] theorem State.poppedWord_resetDone (s : State) :
    s.poppedWord.resetDone = s.resetDone := by simp [State.poppedWord]
@[simp] theorem State.poppedWord_mem (s : State) :
    s.poppedWord.mem = s.mem := by simp [State.poppedWord]
@[simp] theorem State.poppedWord_unknownNotes (s : State) :
    s.poppedWord.unknownNotes = s.unknownNotes := by simp [State.poppedWord]

/-! ### `pushTrapFrame` -/

@[simp] theorem State.pushTrapFrame_regA (s : State) :
    s.pushTrapFrame.regA = s.regA := by simp [State.pushTrapFrame]
@[simp] theorem State.pushTrapFrame_regX (s : State) :
    s.pushTrapFrame.regX = s.regX := by simp [State.pushTrapFrame]
@[simp] theorem State.pushTrapFrame_regY (s : State) :
    s.pushTrapFrame.regY = s.regY := by simp [State.pushTrapFrame]
@[simp] theorem State.pushTrapFrame_regS (s : State) :
    s.pushTrapFrame.regS = s.regS - 1 - 1 - 1 := by simp [State.pushTrapFrame]
@[simp] theorem State.pushTrapFrame_pc (s : State) :
    s.pushTrapFrame.pc = s.pc := by simp [State.pushTrapFrame]
@[simp] theorem State.pushTrapFrame_regP (s : State) :
    s.pushTrapFrame.regP = s.regP := by simp [State.pushTrapFrame]
@[simp] theorem State.pushTrapFrame_pendingCycles (s : State) :
    s.pushTrapFrame.pendingCycles = s.pendingCycles := by simp [State.pushTrapFrame]
@[simp] theorem State.pushTrapFrame_resetDone (s : State) :
    s.pushTrapFrame.resetDone = s.resetDone := by simp [State.pushTrapFrame]
@[simp] theorem State.pushTrapFrame_unknownNotes (s : State) :
    s.pushTrapFrame.unknownNotes = s.unknownNotes := by simp [State.pushTrapFrame]

/-! ### `enterTrap` -/

@[simp] theorem State.enterTrap_regA (s : State) :
    s.enterTrap.regA = s.regA := by simp [State.enterTrap]
@[simp] theorem State.enterTrap_regX (s : State) :
    s.enterTrap.regX = s.regX := by simp [State.enterTrap]
@[simp] theorem State.enterTrap_regY (s : State) :
    s.enterTrap.regY = s.regY := by simp [State.enterTrap]
@[simp] theorem State.enterTrap_regS (s : State) :
    s.enterTrap.regS = s.regS - 1 - 1 - 1 := by simp [State.enterTrap]
@[simp] theorem State.enterTrap_pc (s : State) :
    s.enterTrap.pc = s.pushTrapFrame.readWord Config.brkVector := by simp [State.enterTrap]
@[simp] theorem State.enterTrap_regP (s : State) :
    s.enterTrap.regP = setFlag s.regP .I true := by simp [State.enterTrap]
@[simp] theorem State.enterTrap_pendingCycles (s : State) :
    s.enterTrap.pendingCycles = s.pendingCycles := by simp [State.enterTrap]
@[simp] theorem State.enterTrap_resetDone (s : State) :
    s.enterTrap.resetDone = s.resetDone := by simp [State.enterTrap]
@[simp] theorem State.enterTrap_mem (s : State) :
    s.enterTrap.mem = s.pushTrapFrame.mem := by simp [State.enterTrap]
@[simp] theorem State.enterTrap_unknownNotes (s : State) :
    s.enterTrap.unknownNotes = s.unknownNotes := by simp [State.enterTrap]

/-! ### `leaveTrap` -/

@[simp] theorem State.leaveTrap_regA (s : State) :
    s.leaveTrap.regA = s.regA := by simp [State.leaveTrap]
@[simp] theorem State.leaveTrap_regX (s : State) :
    s.leaveTrap.regX = s.regX := by simp [State.leaveTrap]
@[simp] theorem State.leaveTrap_regY (s : State) :
    s.leaveTrap.regY = s.regY := by simp [State.leaveTrap]
@[simp] theorem State.leaveTrap_regS (s : State) :
    s.leaveTrap.regS = s.regS + 1 + 1 + 1 := by simp [State.leaveTrap]
@[simp] theorem State.leaveTrap_pc (s : State) :
    s.leaveTrap.pc = s.popped.topWord := by simp [State.leaveTrap]
@[simp] theorem State.leaveTrap_regP (s : State) :
    s.leaveTrap.regP = pulledStatus s.top := by simp [State.leaveTrap]
@[simp] theorem State.leaveTrap_pendingCycles (s : State) :
    s.leaveTrap.pendingCycles = s.pendingCycles := by simp [State.leaveTrap]
@[simp] theorem State.leaveTrap_resetDone (s : State) :
    s.leaveTrap.resetDone = s.resetDone := by simp [State.leaveTrap]
@[simp] theorem State.leaveTrap_mem (s : State) :
    s.leaveTrap.mem = s.mem := by simp [State.leaveTrap]
@[simp] theorem State.leaveTrap_unknownNotes (s : State) :
    s.leaveTrap.unknownNotes = s.unknownNotes := by simp [State.leaveTrap]

end Sys2Proof.Machine
end

