-- ==== Sys2Proof/Laws/Memory.lean ====
section
/-! SUPPORT. The laws of the memory list: a read after a write, and that every memory operation keeps the
canonical form. -/

namespace Sys2Proof.Machine

/-! ### The canonical form -/

theorem Memory.wf_cons (k : Nat) (v : Byte) (rest : Memory) :
    Memory.wf ((k, v) :: rest) = true ↔
      k < 65536 ∧ v ≠ Config.unwrittenByte ∧ (∀ c ∈ rest, k < c.1) ∧ Memory.wf rest = true := by
  simp [Memory.wf, and_assoc]

theorem Memory.wf_nil : Memory.wf [] = true := rfl

/-! ### Reading -/

@[simp] theorem cellRead_nil (a : Nat) : cellRead [] a = Config.unwrittenByte := rfl

theorem cellRead_cons (k : Nat) (v : Byte) (rest : Memory) (a : Nat) :
    cellRead ((k, v) :: rest) a = if a = k then v else cellRead rest a := rfl

/-- A key below every listed key is unlisted. -/
theorem cellRead_below (m : Memory) (a : Nat) (h : ∀ c ∈ m, a < c.1) :
    cellRead m a = Config.unwrittenByte := by
  induction m with
  | nil => rfl
  | cons c rest ih =>
    obtain ⟨k, v⟩ := c
    have hk : a < k := h (k, v) (by simp)
    rw [cellRead_cons, if_neg (by omega)]
    exact ih fun c hc => h c (by simp [hc])

/-! ### Reading after a write -/

theorem cellRead_cellCons_ne (a : Nat) (v : Byte) (m : Memory) (b : Nat) (h : b ≠ a) :
    cellRead (cellCons a v m) b = cellRead m b := by
  unfold cellCons
  split
  · rfl
  · rw [cellRead_cons, if_neg h]

theorem cellRead_cellCons_same (a : Nat) (v : Byte) (m : Memory) (h : ∀ c ∈ m, a < c.1) :
    cellRead (cellCons a v m) a = v := by
  unfold cellCons
  split
  · next hv => rw [cellRead_below m a h, hv]
  · rw [cellRead_cons, if_pos rfl]

/-- A write leaves every other key alone, whatever the list. -/
theorem cellRead_cellWrite_ne (m : Memory) (a : Nat) (v : Byte) (b : Nat) (h : b ≠ a) :
    cellRead (cellWrite m a v) b = cellRead m b := by
  induction m with
  | nil => exact cellRead_cellCons_ne a v [] b h
  | cons c rest ih =>
    obtain ⟨k, w⟩ := c
    unfold cellWrite
    split
    · exact cellRead_cellCons_ne a v _ b h
    · split
      · next hk => rw [cellRead_cellCons_ne a v _ b h, cellRead_cons, if_neg (by omega)]
      · rw [cellRead_cons, cellRead_cons, ih]

/-- The byte written is read back. -/
theorem cellRead_cellWrite_same (m : Memory) (hm : m.wf = true) (a : Nat) (v : Byte) :
    cellRead (cellWrite m a v) a = v := by
  induction m with
  | nil => exact cellRead_cellCons_same a v [] (by simp)
  | cons c rest ih =>
    obtain ⟨k, w⟩ := c
    obtain ⟨-, -, hr, hwf⟩ := (Memory.wf_cons k w rest).1 hm
    unfold cellWrite
    split
    · next hk =>
      apply cellRead_cellCons_same
      intro c hc
      rcases List.mem_cons.1 hc with rfl | hc
      · exact hk
      · exact lt_trans hk (hr c hc)
    · split
      · next hk =>
        apply cellRead_cellCons_same
        intro c hc
        rw [hk]
        exact hr c hc
      · rw [cellRead_cons, if_neg (by omega), ih hwf]

/-! ### A write keeps the canonical form -/

theorem cellCons_wf (a : Nat) (v : Byte) (m : Memory) (ha : a < 65536) (hm : m.wf = true)
    (h : ∀ c ∈ m, a < c.1) : (cellCons a v m).wf = true := by
  unfold cellCons
  split
  · exact hm
  · next hv => exact (Memory.wf_cons a v m).2 ⟨ha, hv, h, hm⟩

theorem mem_cellWrite (m : Memory) (a : Nat) (v : Byte) (c : Host.Cell) (hc : c ∈ cellWrite m a v) :
    c.1 = a ∨ c ∈ m := by
  have cons_case : ∀ l : Memory, c ∈ cellCons a v l → c.1 = a ∨ c ∈ l := by
    intro l hl
    unfold cellCons at hl
    split at hl
    · exact .inr hl
    · rcases List.mem_cons.1 hl with rfl | hl
      · exact .inl rfl
      · exact .inr hl
  induction m with
  | nil => exact cons_case [] hc
  | cons d rest ih =>
    obtain ⟨k, w⟩ := d
    unfold cellWrite at hc
    split at hc
    · exact cons_case _ hc
    · split at hc
      · exact (cons_case _ hc).imp_right (List.mem_cons_of_mem _)
      · rcases List.mem_cons.1 hc with rfl | hc
        · exact .inr (by simp)
        · exact (ih hc).imp_right (List.mem_cons_of_mem _)

theorem cellWrite_wf (m : Memory) (hm : m.wf = true) (a : Nat) (ha : a < 65536) (v : Byte) :
    (cellWrite m a v).wf = true := by
  induction m with
  | nil => exact cellCons_wf a v [] ha rfl (by simp)
  | cons c rest ih =>
    obtain ⟨k, w⟩ := c
    obtain ⟨hk, hw, hr, hwf⟩ := (Memory.wf_cons k w rest).1 hm
    unfold cellWrite
    split
    · next hlt =>
      apply cellCons_wf a v _ ha hm
      intro c hc
      rcases List.mem_cons.1 hc with rfl | hc
      · exact hlt
      · exact lt_trans hlt (hr c hc)
    · split
      · next heq =>
        apply cellCons_wf a v _ ha hwf
        intro c hc
        rw [heq]
        exact hr c hc
      · next hlt hne =>
        refine (Memory.wf_cons k w _).2 ⟨hk, hw, fun c hc => ?_, ih hwf⟩
        rcases mem_cellWrite rest a v c hc with h | h
        · omega
        · exact hr c h

/-! ### The same laws of the state -/

theorem State.write_mem_wf (s : State) (hm : s.mem.wf = true) (a : Word) (v : Byte) :
    (s.write a v).mem.wf = true := cellWrite_wf s.mem hm a.toNat a.isLt v

theorem State.read_write_same (s : State) (hm : s.mem.wf = true) (a : Word) (v : Byte) :
    (s.write a v).read a = v := cellRead_cellWrite_same s.mem hm a.toNat v

theorem State.read_write_ne (s : State) (a b : Word) (v : Byte) (h : b ≠ a) :
    (s.write a v).read b = s.read b :=
  cellRead_cellWrite_ne s.mem a.toNat v b.toNat fun hc => h (BitVec.eq_of_toNat_eq hc)

theorem State.push_mem_wf (s : State) (hm : s.mem.wf = true) (v : Byte) : (s.push v).mem.wf = true :=
  cellWrite_wf s.mem hm _ (stackAddr s.regS).isLt v

theorem State.pushWord_mem_wf (s : State) (hm : s.mem.wf = true) (w : Word) :
    (s.pushWord w).mem.wf = true := State.push_mem_wf _ (State.push_mem_wf s hm _) _

theorem State.writeWord_mem_wf (s : State) (hm : s.mem.wf = true) (a w : Word) :
    (s.writeWord a w).mem.wf = true := State.write_mem_wf _ (State.write_mem_wf s hm _ _) _ _

theorem State.pushTrapFrame_mem_wf (s : State) (hm : s.mem.wf = true) :
    s.pushTrapFrame.mem.wf = true := State.push_mem_wf _ (State.pushWord_mem_wf s hm _) _

end Sys2Proof.Machine
end

