-- ==== Sys2Proof/Laws/Ops.lean ====
section
/-! SUPPORT. What the stack primitives, the trap and the return from it do, in terms of single reads. -/

namespace Sys2Proof.Machine

/-! ### Addresses of the stack page -/

theorem stackAddr_toNat (sp : Byte) : (stackAddr sp).toNat = 256 + sp.toNat := by
  have := sp.isLt
  simp only [stackAddr, Config.stackBase, BitVec.toNat_add, zext16_toNat, BitVec.ofNat_eq_ofNat, BitVec.toNat_ofNat]
  omega

theorem stackAddr_inj {a b : Byte} (h : stackAddr a = stackAddr b) : a = b := by
  apply BitVec.eq_of_toNat_eq
  have := congrArg BitVec.toNat h
  rw [stackAddr_toNat, stackAddr_toNat] at this
  omega

theorem stackAddr_sub_one_ne (sp : Byte) : stackAddr (sp - 1) ≠ stackAddr sp := fun h => by
  have := stackAddr_inj h
  bv_omega

theorem stackAddr_sub_two_ne (sp : Byte) : stackAddr (sp - 1 - 1) ≠ stackAddr sp := fun h => by
  have := stackAddr_inj h
  bv_omega

/-- No vector lies in the stack page. -/
theorem stackAddr_ne_of_le (sp : Byte) (a : Word) (h : 0x0200 ≤ a.toNat) : a ≠ stackAddr sp := fun hc => by
  have := congrArg BitVec.toNat hc
  rw [stackAddr_toNat] at this
  have := sp.isLt
  omega

/-! ### `Push` and `PushWord` -/

theorem State.read_push_same (s : State) (hm : s.mem.wf = true) (v : Byte) :
    (s.push v).read (stackAddr s.regS) = v := State.read_write_same s hm _ v

theorem State.read_push_ne (s : State) (v : Byte) (a : Word) (h : a ≠ stackAddr s.regS) :
    (s.push v).read a = s.read a := State.read_write_ne s _ a v h

theorem State.read_pushWord_high (s : State) (hm : s.mem.wf = true) (w : Word) :
    (s.pushWord w).read (stackAddr s.regS) = hi8 w := by
  unfold State.pushWord
  rw [State.read_push_ne _ _ _ (by simpa using (stackAddr_sub_one_ne s.regS).symm)]
  exact State.read_push_same s hm _

theorem State.read_pushWord_low (s : State) (hm : s.mem.wf = true) (w : Word) :
    (s.pushWord w).read (stackAddr (s.regS - 1)) = lo8 w :=
  State.read_push_same (s.push (hi8 w)) (State.push_mem_wf s hm _) _

theorem State.read_pushWord_ne (s : State) (w : Word) (a : Word) (h0 : a ≠ stackAddr s.regS)
    (h1 : a ≠ stackAddr (s.regS - 1)) : (s.pushWord w).read a = s.read a := by
  unfold State.pushWord
  rw [State.read_push_ne _ _ _ (by simpa using h1), State.read_push_ne _ _ _ h0]

/-! ### `Pop` and `PopWord` -/

@[simp] theorem State.poppedWord_read (s : State) (a : Word) : s.poppedWord.read a = s.read a := rfl

@[simp] theorem State.poppedWord_flag (s : State) (f : Flag) : s.poppedWord.flag f = s.flag f := rfl

theorem State.topWord_eq (s : State) :
    s.topWord = wordOf (s.read (stackAddr (s.regS + 1 + 1))) (s.read (stackAddr (s.regS + 1))) := rfl

theorem State.top_push (s : State) (hm : s.mem.wf = true) (v : Byte) : (s.push v).top = v := by
  unfold State.top
  rw [State.push_regS, BitVec.sub_add_cancel]
  exact State.read_push_same s hm v

theorem State.topWord_pushWord (s : State) (hm : s.mem.wf = true) (w : Word) :
    (s.pushWord w).topWord = w := by
  rw [State.topWord_eq, State.pushWord_regS, BitVec.sub_add_cancel, BitVec.sub_add_cancel,
    State.read_pushWord_high s hm, State.read_pushWord_low s hm, wordOf_hi8_lo8]

/-! ### Taking the trap -/

theorem State.read_pushTrapFrame_status (s : State) (hm : s.mem.wf = true) :
    s.pushTrapFrame.read (stackAddr (s.regS - 1 - 1)) = pushedStatus s.regP :=
  State.read_push_same (s.pushWord (s.pc + 1)) (State.pushWord_mem_wf s hm _) _

theorem State.read_pushTrapFrame_ne (s : State) (a : Word) (h : a ≠ stackAddr (s.regS - 1 - 1)) :
    s.pushTrapFrame.read a = (s.pushWord (s.pc + 1)).read a :=
  State.read_push_ne _ _ _ (by simpa using h)

/-- The vector is outside the stack page, so the pushes do not change it. -/
theorem State.read_pushTrapFrame_high (s : State) (a : Word) (h : 0x0200 ≤ a.toNat) :
    s.pushTrapFrame.read a = s.read a := by
  rw [State.read_pushTrapFrame_ne s a (stackAddr_ne_of_le _ a h),
    State.read_pushWord_ne s _ a (stackAddr_ne_of_le _ a h) (stackAddr_ne_of_le _ a h)]

@[simp] theorem State.enterTrap_read (s : State) (a : Word) :
    s.enterTrap.read a = s.pushTrapFrame.read a := rfl

@[simp] theorem State.leaveTrap_read (s : State) (a : Word) : s.leaveTrap.read a = s.read a := rfl

end Sys2Proof.Machine
end

