-- ==== Sys2Proof/Laws/Operands.lean ====
section
/-! SUPPORT. What the evaluator and the cycle budget can be, and what `conclude` and `branch` answer. -/

namespace Sys2Proof.Machine

/-- R114 written out. -/
theorem crossed_def (base ea : Word) :
    crossed base ea = if base &&& 0xFF00 = ea &&& 0xFF00 then 0 else 1 := rfl

theorem crossed_comm (a b : Word) : crossed a b = crossed b a := by
  simp only [crossed, eq_comm]

theorem crossed_le_one (base ea : Word) : crossed base ea ≤ 1 := by
  unfold crossed
  split <;> omega

theorem memCrossed_le_one (s : State) (m : MemOperand) : memCrossed s m ≤ 1 := by
  unfold memCrossed
  split
  · omega
  · exact crossed_le_one _ _

theorem pageCrossing_le_one (s : State) (o : Operand) : pageCrossing s o ≤ 1 := by
  cases o with
  | memory m => exact memCrossed_le_one s m
  | implied | accumulator | immediate _ | relative _ | indirect _ => exact Nat.zero_le 1

theorem pagePenalty_le_one (i : Instr) (s : State) : pagePenalty i s ≤ 1 := by
  unfold pagePenalty
  split
  · exact pageCrossing_le_one s i.operand
  · exact Nat.zero_le 1

/-- A row without R74's `+` pays nothing. -/
theorem pagePenalty_of_not_pays (i : Instr) (s : State) (h : paysPageCross i = false) :
    pagePenalty i s = 0 := by
  unfold pagePenalty
  rw [h]
  rfl

/-- The state a meaning concludes in: its effects, with the cycle budget loaded. -/
theorem conclude_eq (i : Instr) (s : State) (extra : Nat) (t : State) :
    conclude i s extra t =
      .next (t.setPending (baseCycles i + pagePenalty i s + extra - 1)) := rfl

theorem conclude_inv {i : Instr} {s : State} {extra : Nat} {t u : State}
    (h : conclude i s extra t = .next u) :
    u = t.setPending (baseCycles i + pagePenalty i s + extra - 1) := by
  rw [conclude_eq] at h
  injection h with h
  exact h.symm

end Sys2Proof.Machine
end

