-- ==== Sys2Proof/Laws/Branch.lean ====
section
/-! SUPPORT. The branch handler, taken and not taken. -/

namespace Sys2Proof.Machine

theorem branch_taken (i : Instr) (offset : Byte) (s : State) :
    branch i true offset s =
      conclude i s (1 + crossed s.pc (relativeTarget s offset)) (s.setPc (relativeTarget s offset)) := rfl

theorem branch_not_taken (i : Instr) (offset : Byte) (s : State) :
    branch i false offset s = conclude i s 0 s := rfl

/-- A branch answers a next state either way. -/
theorem branch_cases (i : Instr) (cond : Bool) (offset : Byte) (s t : State)
    (h : branch i cond offset s = .next t) :
    (cond = true ∧ t = (s.setPc (relativeTarget s offset)).setPending
        (baseCycles i + pagePenalty i s + (1 + crossed s.pc (relativeTarget s offset)) - 1)) ∨
    (cond = false ∧ t = s.setPending (baseCycles i + pagePenalty i s + 0 - 1)) := by
  cases cond
  · exact .inr ⟨rfl, conclude_inv h⟩
  · exact .inl ⟨rfl, conclude_inv h⟩

end Sys2Proof.Machine
end

