-- ==== Sys2Proof/Laws/Updates.lean ====
section
/-! SUPPORT. One lemma per field for the updates that the meanings share: `loadA`, `loadSum`, `modify`, `shift`. -/

namespace Sys2Proof.Machine

/-! ### `loadA` -/

@[simp] theorem State.loadA_regA (s : State) (r : Byte) :
    (s.loadA r).regA = r := rfl
@[simp] theorem State.loadA_regX (s : State) (r : Byte) :
    (s.loadA r).regX = s.regX := rfl
@[simp] theorem State.loadA_regY (s : State) (r : Byte) :
    (s.loadA r).regY = s.regY := rfl
@[simp] theorem State.loadA_regS (s : State) (r : Byte) :
    (s.loadA r).regS = s.regS := rfl
@[simp] theorem State.loadA_pc (s : State) (r : Byte) :
    (s.loadA r).pc = s.pc := rfl
@[simp] theorem State.loadA_regP (s : State) (r : Byte) :
    (s.loadA r).regP = setZN s.regP r := rfl
@[simp] theorem State.loadA_pendingCycles (s : State) (r : Byte) :
    (s.loadA r).pendingCycles = s.pendingCycles := rfl
@[simp] theorem State.loadA_resetDone (s : State) (r : Byte) :
    (s.loadA r).resetDone = s.resetDone := rfl
@[simp] theorem State.loadA_mem (s : State) (r : Byte) :
    (s.loadA r).mem = s.mem := rfl
@[simp] theorem State.loadA_unknownNotes (s : State) (r : Byte) :
    (s.loadA r).unknownNotes = s.unknownNotes := rfl
@[simp] theorem State.loadA_read (s : State) (r : Byte) (b : Word) :
    (s.loadA r).read b = s.read b := rfl

/-! ### `loadSum` -/

@[simp] theorem State.loadSum_regA (s : State) (r : Sum) :
    (s.loadSum r).regA = r.result := rfl
@[simp] theorem State.loadSum_regX (s : State) (r : Sum) :
    (s.loadSum r).regX = s.regX := rfl
@[simp] theorem State.loadSum_regY (s : State) (r : Sum) :
    (s.loadSum r).regY = s.regY := rfl
@[simp] theorem State.loadSum_regS (s : State) (r : Sum) :
    (s.loadSum r).regS = s.regS := rfl
@[simp] theorem State.loadSum_pc (s : State) (r : Sum) :
    (s.loadSum r).pc = s.pc := rfl
@[simp] theorem State.loadSum_regP (s : State) (r : Sum) :
    (s.loadSum r).regP = sumStatus s.regP r := rfl
@[simp] theorem State.loadSum_pendingCycles (s : State) (r : Sum) :
    (s.loadSum r).pendingCycles = s.pendingCycles := rfl
@[simp] theorem State.loadSum_resetDone (s : State) (r : Sum) :
    (s.loadSum r).resetDone = s.resetDone := rfl
@[simp] theorem State.loadSum_mem (s : State) (r : Sum) :
    (s.loadSum r).mem = s.mem := rfl
@[simp] theorem State.loadSum_unknownNotes (s : State) (r : Sum) :
    (s.loadSum r).unknownNotes = s.unknownNotes := rfl
@[simp] theorem State.loadSum_read (s : State) (r : Sum) (b : Word) :
    (s.loadSum r).read b = s.read b := rfl

/-! ### `modify` -/

@[simp] theorem State.modify_regA (s : State) (ea : Word) (f : Byte → Byte) :
    (s.modify ea f).regA = s.regA := rfl
@[simp] theorem State.modify_regX (s : State) (ea : Word) (f : Byte → Byte) :
    (s.modify ea f).regX = s.regX := rfl
@[simp] theorem State.modify_regY (s : State) (ea : Word) (f : Byte → Byte) :
    (s.modify ea f).regY = s.regY := rfl
@[simp] theorem State.modify_regS (s : State) (ea : Word) (f : Byte → Byte) :
    (s.modify ea f).regS = s.regS := rfl
@[simp] theorem State.modify_pc (s : State) (ea : Word) (f : Byte → Byte) :
    (s.modify ea f).pc = s.pc := rfl
@[simp] theorem State.modify_regP (s : State) (ea : Word) (f : Byte → Byte) :
    (s.modify ea f).regP = setZN s.regP (f (s.read ea)) := rfl
@[simp] theorem State.modify_pendingCycles (s : State) (ea : Word) (f : Byte → Byte) :
    (s.modify ea f).pendingCycles = s.pendingCycles := rfl
@[simp] theorem State.modify_resetDone (s : State) (ea : Word) (f : Byte → Byte) :
    (s.modify ea f).resetDone = s.resetDone := rfl
@[simp] theorem State.modify_mem (s : State) (ea : Word) (f : Byte → Byte) :
    (s.modify ea f).mem = (s.write ea (f (s.read ea))).mem := rfl
@[simp] theorem State.modify_unknownNotes (s : State) (ea : Word) (f : Byte → Byte) :
    (s.modify ea f).unknownNotes = s.unknownNotes := rfl

theorem State.modify_read_same (s : State) (hm : s.mem.wf = true) (ea : Word) (f : Byte → Byte) :
    (s.modify ea f).read ea = f (s.read ea) := State.read_write_same s hm ea _

theorem State.modify_read_ne (s : State) (ea : Word) (f : Byte → Byte) (b : Word) (h : b ≠ ea) :
    (s.modify ea f).read b = s.read b := State.read_write_ne s ea b _ h

/-! ### `shift` -/

@[simp] theorem State.shift_regX (s : State) (t : Target) (r : Shifted) :
    (s.shift t r).regX = s.regX := by cases t <;> rfl
@[simp] theorem State.shift_regY (s : State) (t : Target) (r : Shifted) :
    (s.shift t r).regY = s.regY := by cases t <;> rfl
@[simp] theorem State.shift_regS (s : State) (t : Target) (r : Shifted) :
    (s.shift t r).regS = s.regS := by cases t <;> rfl
@[simp] theorem State.shift_pc (s : State) (t : Target) (r : Shifted) :
    (s.shift t r).pc = s.pc := by cases t <;> rfl
@[simp] theorem State.shift_regP (s : State) (t : Target) (r : Shifted) :
    (s.shift t r).regP = shiftStatus s.regP r := rfl
@[simp] theorem State.shift_pendingCycles (s : State) (t : Target) (r : Shifted) :
    (s.shift t r).pendingCycles = s.pendingCycles := by cases t <;> rfl
@[simp] theorem State.shift_resetDone (s : State) (t : Target) (r : Shifted) :
    (s.shift t r).resetDone = s.resetDone := by cases t <;> rfl
@[simp] theorem State.shift_unknownNotes (s : State) (t : Target) (r : Shifted) :
    (s.shift t r).unknownNotes = s.unknownNotes := by cases t <;> rfl

/-- On A the result goes to A, and memory is as before. -/
theorem State.shift_acc (s : State) (r : Shifted) :
    s.shift .acc r = (s.setA r.result).setP (shiftStatus s.regP r) := rfl

/-- On a cell the result goes to the cell, and A is as before. -/
theorem State.shift_cell (s : State) (m : MemOperand) (r : Shifted) :
    s.shift (.mem m) r = (s.write (effectiveAddress s m) r.result).setP (shiftStatus s.regP r) := rfl

theorem State.shift_mem_wf (s : State) (hm : s.mem.wf = true) (t : Target) (r : Shifted) :
    (s.shift t r).mem.wf = true := by
  cases t with
  | acc => exact hm
  | mem m => exact State.write_mem_wf s hm _ _

theorem State.modify_mem_wf (s : State) (hm : s.mem.wf = true) (ea : Word) (f : Byte → Byte) :
    (s.modify ea f).mem.wf = true := State.write_mem_wf s hm _ _

/-! ### The flags they leave -/

@[simp] theorem State.loadA_flag (s : State) (r : Byte) (g : Flag) :
    (s.loadA r).flag g = if g = .N then r.getLsbD 7 else if g = .Z then r == 0 else s.flag g :=
  flag_setZN s.regP r g

@[simp] theorem State.loadSum_flag (s : State) (r : Sum) (g : Flag) :
    (s.loadSum r).flag g =
      if g = .N then r.result.getLsbD 7
      else if g = .Z then r.result == 0
      else if g = .V then r.overflow
      else if g = .C then r.carry
      else s.flag g := flag_sumStatus s.regP r g

@[simp] theorem State.modify_flag (s : State) (ea : Word) (f : Byte → Byte) (g : Flag) :
    (s.modify ea f).flag g =
      if g = .N then (f (s.read ea)).getLsbD 7
      else if g = .Z then f (s.read ea) == 0
      else s.flag g := flag_setZN s.regP (f (s.read ea)) g

@[simp] theorem State.shift_flag (s : State) (t : Target) (r : Shifted) (g : Flag) :
    (s.shift t r).flag g =
      if g = .N then r.result.getLsbD 7
      else if g = .Z then r.result == 0
      else if g = .C then r.out
      else s.flag g := flag_shiftStatus s.regP r g

end Sys2Proof.Machine
end

