-- ==== Sys2Proof/Laws/Exec.lean ====
section
/-! SUPPORT. What `exec` answers, one lemma per constructor: the state its effects leave, with the cycle budget
loaded by `conclude`. A claim about an instruction starts from its lemma and unfolds neither `exec` nor the
meaning. -/

namespace Sys2Proof.Machine

theorem exec_lda (o : AluOperand) (s : State) :
    exec (.lda o) s =
      conclude (.lda o) s 0 ((s.setA (sourceByte s o.source)).putZN (sourceByte s o.source)) := rfl

theorem exec_ldx (o : LdxOperand) (s : State) :
    exec (.ldx o) s =
      conclude (.ldx o) s 0 ((s.setX (sourceByte s o.source)).putZN (sourceByte s o.source)) := rfl

theorem exec_ldy (o : LdyOperand) (s : State) :
    exec (.ldy o) s =
      conclude (.ldy o) s 0 ((s.setY (sourceByte s o.source)).putZN (sourceByte s o.source)) := rfl

theorem exec_sta (o : StaOperand) (s : State) :
    exec (.sta o) s =
      conclude (.sta o) s 0 (s.write (effectiveAddress s o.mem) s.regA) := rfl

theorem exec_stx (o : StxOperand) (s : State) :
    exec (.stx o) s =
      conclude (.stx o) s 0 (s.write (effectiveAddress s o.mem) s.regX) := rfl

theorem exec_sty (o : StyOperand) (s : State) :
    exec (.sty o) s =
      conclude (.sty o) s 0 (s.write (effectiveAddress s o.mem) s.regY) := rfl

theorem exec_tax (s : State) :
    exec .tax s =
      conclude .tax s 0 ((s.setX s.regA).putZN s.regA) := rfl

theorem exec_tay (s : State) :
    exec .tay s =
      conclude .tay s 0 ((s.setY s.regA).putZN s.regA) := rfl

theorem exec_txa (s : State) :
    exec .txa s =
      conclude .txa s 0 ((s.setA s.regX).putZN s.regX) := rfl

theorem exec_tya (s : State) :
    exec .tya s =
      conclude .tya s 0 ((s.setA s.regY).putZN s.regY) := rfl

theorem exec_tsx (s : State) :
    exec .tsx s =
      conclude .tsx s 0 ((s.setX s.regS).putZN s.regS) := rfl

theorem exec_txs (s : State) :
    exec .txs s =
      conclude .txs s 0 (s.setS s.regX) := rfl

theorem exec_pha (s : State) :
    exec .pha s =
      conclude .pha s 0 (s.push s.regA) := rfl

theorem exec_pla (s : State) :
    exec .pla s =
      conclude .pla s 0 ((s.popped.setA s.top).putZN s.top) := rfl

theorem exec_php (s : State) :
    exec .php s =
      conclude .php s 0 (s.push (pushedStatus s.regP)) := rfl

theorem exec_plp (s : State) :
    exec .plp s =
      conclude .plp s 0 (s.popped.setP (pulledStatus s.top)) := rfl

theorem exec_and (o : AluOperand) (s : State) :
    exec (.and o) s =
      conclude (.and o) s 0 (s.loadA (s.regA &&& sourceByte s o.source)) := rfl

theorem exec_ora (o : AluOperand) (s : State) :
    exec (.ora o) s =
      conclude (.ora o) s 0 (s.loadA (s.regA ||| sourceByte s o.source)) := rfl

theorem exec_eor (o : AluOperand) (s : State) :
    exec (.eor o) s =
      conclude (.eor o) s 0 (s.loadA (s.regA ^^^ sourceByte s o.source)) := rfl

theorem exec_adc (o : AluOperand) (s : State) :
    exec (.adc o) s =
      conclude (.adc o) s 0 (s.loadSum (adcSum s.regP s.regA (sourceByte s o.source))) := rfl

theorem exec_sbc (o : AluOperand) (s : State) :
    exec (.sbc o) s =
      conclude (.sbc o) s 0 (s.loadSum (sbcSum s.regP s.regA (sourceByte s o.source))) := rfl

theorem exec_cmp (o : AluOperand) (s : State) :
    exec (.cmp o) s =
      conclude (.cmp o) s 0 (s.setP (compareStatus s.regP s.regA (sourceByte s o.source))) := rfl

theorem exec_cpx (o : CpOperand) (s : State) :
    exec (.cpx o) s =
      conclude (.cpx o) s 0 (s.setP (compareStatus s.regP s.regX (sourceByte s o.source))) := rfl

theorem exec_cpy (o : CpOperand) (s : State) :
    exec (.cpy o) s =
      conclude (.cpy o) s 0 (s.setP (compareStatus s.regP s.regY (sourceByte s o.source))) := rfl

theorem exec_inc (o : RmwOperand) (s : State) :
    exec (.inc o) s =
      conclude (.inc o) s 0 (s.modify (effectiveAddress s o.mem) (· + 1)) := rfl

theorem exec_dec (o : RmwOperand) (s : State) :
    exec (.dec o) s =
      conclude (.dec o) s 0 (s.modify (effectiveAddress s o.mem) (· - 1)) := rfl

theorem exec_inx (s : State) :
    exec .inx s =
      conclude .inx s 0 ((s.setX (s.regX + 1)).putZN (s.regX + 1)) := rfl

theorem exec_dex (s : State) :
    exec .dex s =
      conclude .dex s 0 ((s.setX (s.regX - 1)).putZN (s.regX - 1)) := rfl

theorem exec_iny (s : State) :
    exec .iny s =
      conclude .iny s 0 ((s.setY (s.regY + 1)).putZN (s.regY + 1)) := rfl

theorem exec_dey (s : State) :
    exec .dey s =
      conclude .dey s 0 ((s.setY (s.regY - 1)).putZN (s.regY - 1)) := rfl

theorem exec_asl (o : ShiftOperand) (s : State) :
    exec (.asl o) s =
      conclude (.asl o) s 0 (s.shift o.target (aslByte (targetByte s o.target))) := rfl

theorem exec_lsr (o : ShiftOperand) (s : State) :
    exec (.lsr o) s =
      conclude (.lsr o) s 0 (s.shift o.target (lsrByte (targetByte s o.target))) := rfl

theorem exec_rol (o : ShiftOperand) (s : State) :
    exec (.rol o) s =
      conclude (.rol o) s 0 (s.shift o.target (rolByte (s.flag .C) (targetByte s o.target))) := rfl

theorem exec_ror (o : ShiftOperand) (s : State) :
    exec (.ror o) s =
      conclude (.ror o) s 0 (s.shift o.target (rorByte (s.flag .C) (targetByte s o.target))) := rfl

theorem exec_bcc (offset : Byte) (s : State) :
    exec (.bcc offset) s =
      branch (.bcc offset) (!s.flag .C) offset s := rfl

theorem exec_bcs (offset : Byte) (s : State) :
    exec (.bcs offset) s =
      branch (.bcs offset) (s.flag .C) offset s := rfl

theorem exec_beq (offset : Byte) (s : State) :
    exec (.beq offset) s =
      branch (.beq offset) (s.flag .Z) offset s := rfl

theorem exec_bne (offset : Byte) (s : State) :
    exec (.bne offset) s =
      branch (.bne offset) (!s.flag .Z) offset s := rfl

theorem exec_bmi (offset : Byte) (s : State) :
    exec (.bmi offset) s =
      branch (.bmi offset) (s.flag .N) offset s := rfl

theorem exec_bpl (offset : Byte) (s : State) :
    exec (.bpl offset) s =
      branch (.bpl offset) (!s.flag .N) offset s := rfl

theorem exec_bvc (offset : Byte) (s : State) :
    exec (.bvc offset) s =
      branch (.bvc offset) (!s.flag .V) offset s := rfl

theorem exec_bvs (offset : Byte) (s : State) :
    exec (.bvs offset) s =
      branch (.bvs offset) (s.flag .V) offset s := rfl

theorem exec_jmp (o : JmpOperand) (s : State) :
    exec (.jmp o) s =
      conclude (.jmp o) s 0 (s.setPc (jumpTarget s o)) := rfl

theorem exec_jsr (target : Word) (s : State) :
    exec (.jsr target) s =
      conclude (.jsr target) s 0 ((s.pushWord (s.pc - 1)).setPc target) := rfl

theorem exec_rts (s : State) :
    exec .rts s =
      conclude .rts s 0 (s.poppedWord.setPc (s.topWord + 1)) := rfl

theorem exec_rti (s : State) :
    exec .rti s =
      conclude .rti s 0 s.leaveTrap := rfl

theorem exec_brk (s : State) :
    exec .brk s =
      conclude .brk s 0 s.enterTrap := rfl

theorem exec_clc (s : State) :
    exec .clc s =
      conclude .clc s 0 (s.putFlag .C false) := rfl

theorem exec_sec (s : State) :
    exec .sec s =
      conclude .sec s 0 (s.putFlag .C true) := rfl

theorem exec_cli (s : State) :
    exec .cli s =
      conclude .cli s 0 (s.putFlag .I false) := rfl

theorem exec_sei (s : State) :
    exec .sei s =
      conclude .sei s 0 (s.putFlag .I true) := rfl

theorem exec_cld (s : State) :
    exec .cld s =
      conclude .cld s 0 (s.putFlag .D false) := rfl

theorem exec_sed (s : State) :
    exec .sed s =
      conclude .sed s 0 (s.putFlag .D true) := rfl

theorem exec_clv (s : State) :
    exec .clv s =
      conclude .clv s 0 (s.putFlag .V false) := rfl

theorem exec_bit (o : BitOperand) (s : State) :
    exec (.bit o) s =
      conclude (.bit o) s 0 (s.setP (bitStatus s.regP s.regA (s.read (effectiveAddress s o.mem)))) := rfl

theorem exec_nop (s : State) :
    exec .nop s =
      conclude .nop s 0 s := rfl

theorem exec_unknown (opcode : Byte) (s : State) :
    exec (.unknown opcode) s =
      conclude (.unknown opcode) s 0 (s.noteUnknown (s.pc - 1) opcode) := rfl

end Sys2Proof.Machine
end

