-- ==== Sys2Proof/Laws/Fetch.lean ====
section
/-! SUPPORT. Placing an instruction where the next tick fetches it: the tick runs exactly that instruction. -/

namespace Sys2Proof.Machine

theorem State.writeThree_mem_wf (s : State) (hm : s.mem.wf = true) (a : Word) (b0 b1 b2 : Byte) :
    (s.writeThree a b0 b1 b2).mem.wf = true :=
  State.write_mem_wf _ (State.write_mem_wf _ (State.write_mem_wf _ hm _ _) _ _) _ _

theorem State.instrAt_writeThree (s : State) (hm : s.mem.wf = true) (a : Word) (b0 b1 b2 : Byte) :
    instrAt (s.writeThree a b0 b1 b2) a = decodeBytes b0 b1 b2 := by
  have h01 : a ≠ a + 1 := by bv_omega
  have h02 : a ≠ a + 2 := by bv_omega
  have h12 : a + 1 ≠ a + 2 := by bv_omega
  have w0 := State.write_mem_wf s hm a b0
  have w1 := State.write_mem_wf _ w0 (a + 1) b1
  unfold instrAt State.writeThree
  rw [State.read_write_same _ w1, State.read_write_ne _ _ _ _ h12, State.read_write_same _ w0,
    State.read_write_ne _ _ _ _ h02, State.read_write_ne _ _ _ _ h01, State.read_write_same _ hm]

theorem State.read_writeThree_ne (s : State) (a : Word) (b0 b1 b2 : Byte) (c : Word) (h0 : c ≠ a)
    (h1 : c ≠ a + 1) (h2 : c ≠ a + 2) : (s.writeThree a b0 b1 b2).read c = s.read c := by
  unfold State.writeThree
  rw [State.read_write_ne _ _ _ _ h2, State.read_write_ne _ _ _ _ h1, State.read_write_ne _ _ _ _ h0]

/-- Placed at PC after the reset, the instruction is the next one fetched. -/
theorem State.fetch_placeNext_ready (s : State) (hm : s.mem.wf = true) (hr : s.resetDone = true)
    (b0 b1 b2 : Byte) :
    fetchInstr (s.placeNext b0 b1 b2).afterReset = decodeBytes b0 b1 b2 := by
  have h : (s.placeNext b0 b1 b2).afterReset = (s.setPending 0).writeThree s.pc b0 b1 b2 := by
    simp [State.placeNext, State.afterReset, State.writeThree, hr]
  rw [h]
  exact State.instrAt_writeThree (s.setPending 0) hm s.pc b0 b1 b2

/-- A word away from the reset vector leaves it as it was. -/
theorem State.readVector_writeThree (s : State) (a : Word) (b0 b1 b2 : Byte)
    (h : overlapsResetVector a = false) :
    (s.writeThree a b0 b1 b2).readWord Config.resetVector = s.readWord Config.resetVector := by
  simp only [overlapsResetVector, Bool.or_eq_false_iff, beq_eq_false_iff_ne] at h
  obtain ⟨⟨⟨hA, hB⟩, hC⟩, hD⟩ := h
  unfold State.readWord Config.resetVector
  rw [State.read_writeThree_ne, State.read_writeThree_ne] <;> bv_omega

/-- Placed before the reset sequence, the instruction is the first one fetched. -/
theorem State.fetch_placeNext_unreset (s : State) (hm : s.mem.wf = true) (hr : s.resetDone = false)
    (b0 b1 b2 : Byte) :
    fetchInstr (s.placeNext b0 b1 b2).afterReset = decodeBytes b0 b1 b2 := by
  have key : ∀ u : State, u.mem.wf = true → u.resetDone = false →
      overlapsResetVector (u.readWord Config.resetVector) = false →
      fetchInstr (u.writeThree (u.readWord Config.resetVector) b0 b1 b2).afterReset =
        decodeBytes b0 b1 b2 := by
    intro u hu hd ho
    have hd' : (u.writeThree (u.readWord Config.resetVector) b0 b1 b2).resetDone = false := hd
    unfold State.afterReset
    rw [hd', if_neg (by simp)]
    show instrAt (u.writeThree (u.readWord Config.resetVector) b0 b1 b2)
      ((u.writeThree (u.readWord Config.resetVector) b0 b1 b2).readWord Config.resetVector) = _
    rw [State.readVector_writeThree u _ b0 b1 b2 ho]
    exact State.instrAt_writeThree u hu _ b0 b1 b2
  unfold State.placeNext
  simp only [State.setPending_resetDone, hr, Bool.false_eq_true, if_false]
  split
  · have hm' : (s.setPending 0).mem.wf = true := hm
    have hz : ((s.setPending 0).writeWord Config.resetVector 0).readWord Config.resetVector = 0 := by
      unfold State.readWord State.writeWord
      rw [State.read_write_same _ (State.write_mem_wf _ hm' _ _),
        State.read_write_ne _ _ _ _ (by decide), State.read_write_same _ hm']
      rfl
    have := key ((s.setPending 0).writeWord Config.resetVector 0)
      (State.writeWord_mem_wf _ hm' _ _) hr (by rw [hz]; decide)
    rwa [hz] at this
  · next ho => exact key (s.setPending 0) hm hr (by simpa using ho)

end Sys2Proof.Machine
end

