-- ==== Sys2Proof/Laws/HostPort.lean ====
section
/-! SUPPORT. What the host's operations can do: the bytes a digit string stands for, the three answers of
`load_rom`, the cells a run of bytes leaves, and the first step of the disassembler's walk. -/

namespace Sys2Proof.Machine

open Sys2Proof.Safety

/-! ### Digits and pairs (80_host_interface.md R272) -/

theorem hexDigit_of_mem (c : Char) (h : c ∈ hexDigits) : hexDigit c = some (digitValue c) := by
  have all : hexDigits.all (fun d => hexDigit d == some (digitValue d)) = true := by decide
  exact beq_iff_eq.1 (List.all_eq_true.1 all c h)

theorem digitValue_lt (c : Char) (h : c ∈ hexDigits) : digitValue c < 16 := by
  have all : hexDigits.all (fun d => decide (digitValue d < 16)) = true := by decide
  exact of_decide_eq_true (List.all_eq_true.1 all c h)

/-- The codes `lo` to `hi` are digits, so no other character has one of them. -/
theorem code_not_mem_of_digits (c : Char) (h : c ∉ hexDigits) (lo n : Nat)
    (digits : ∀ k, k < n → Char.ofNat (lo + k) ∈ hexDigits) : ¬ (lo ≤ c.toNat ∧ c.toNat < lo + n) := by
  rintro ⟨h1, h2⟩
  have := digits (c.toNat - lo) (by omega)
  rw [Nat.add_sub_cancel' h1, Char.ofNat_toNat] at this
  exact h this

theorem hexDigit_eq_none (c : Char) (h : c ∉ hexDigits) : hexDigit c = none := by
  have n := code_not_mem_of_digits c h 48 10 (by decide)
  have u := code_not_mem_of_digits c h 65 6 (by decide)
  have l := code_not_mem_of_digits c h 97 6 (by decide)
  unfold hexDigit
  rw [if_neg (by omega), if_neg (by omega), if_neg (by omega)]

/-- Pairs of digits give as many bytes as pairs, each 16 times its first digit plus its second. -/
theorem hexPairs_eq_some : ∀ ds : List Char, ds.length % 2 = 0 → (∀ c ∈ ds, c ∈ hexDigits) →
    ∃ bs, hexPairs ds = some bs ∧ ds.length = 2 * bs.length ∧
      ∀ (k : Nat) (b : Byte), bs[k]? = some b → ∃ h l, ds[2 * k]? = some h ∧
        ds[2 * k + 1]? = some l ∧ b.toNat = 16 * digitValue h + digitValue l
  | [], _, _ => ⟨[], rfl, rfl, fun k b h => by simp at h⟩
  | [_], h, _ => by simp at h
  | h :: l :: rest, he, hd => by
    obtain ⟨bs, h1, h2, h3⟩ := hexPairs_eq_some rest (by simp at he; omega)
      (fun c hc => hd c (by simp [hc]))
    have hh := hd h (by simp)
    have hl := hd l (by simp)
    refine ⟨BitVec.ofNat 8 (digitValue h * 16 + digitValue l) :: bs, ?_, by simp; omega, ?_⟩
    · simp [hexPairs, hexDigit_of_mem h hh, hexDigit_of_mem l hl, h1]
    · intro k b hb
      cases k with
      | zero =>
        have : BitVec.ofNat 8 (digitValue h * 16 + digitValue l) = b := by simpa using hb
        have := digitValue_lt h hh
        have := digitValue_lt l hl
        refine ⟨h, l, rfl, rfl, ?_⟩
        subst b
        rw [BitVec.toNat_ofNat]
        omega
      | succ k => exact h3 k b (by simpa using hb)

/-- An odd number of characters, or one that is no digit, gives no bytes. -/
theorem hexPairs_eq_none : ∀ ds : List Char,
    (ds.length % 2 = 1 ∨ ∃ c ∈ ds, c ∉ hexDigits) → hexPairs ds = none
  | [], h => by simp at h
  | [_], _ => rfl
  | h :: l :: rest, bad => by
    by_cases hh : h ∈ hexDigits
    · by_cases hl : l ∈ hexDigits
      · have : hexPairs rest = none := hexPairs_eq_none rest (by
          rcases bad with odd | ⟨c, hc, hn⟩
          · exact .inl (by simp at odd; omega)
          · simp only [List.mem_cons] at hc
            rcases hc with rfl | rfl | hc
            · exact absurd hh hn
            · exact absurd hl hn
            · exact .inr ⟨c, hc, hn⟩)
        simp [hexPairs, this]
      · simp [hexPairs, hexDigit_eq_none l hl]
    · simp [hexPairs, hexDigit_eq_none h hh]

theorem parseImage_of_ne_nil (text : String)
    (h : text.toList.filter (fun c => !c.isWhitespace) ≠ []) :
    parseImage text = hexPairs (text.toList.filter (fun c => !c.isWhitespace)) := by
  unfold parseImage
  split
  · contradiction
  · rename_i e
    rw [e]

/-- What `parseImage` answers: none where the digits are no pairs, else the bytes of the pairs. -/
theorem parseImage_cases (text : String) :
    let digits := text.toList.filter (fun c => !c.isWhitespace)
    let bad := digits = [] ∨ digits.length % 2 = 1 ∨ ∃ c ∈ digits, c ∉ hexDigits
    (bad ∧ parseImage text = none) ∨
    (¬ bad ∧ ∃ bs, parseImage text = some bs ∧ digits.length = 2 * bs.length ∧
      ∀ (k : Nat) (b : Byte), bs[k]? = some b → ∃ h l, digits[2 * k]? = some h ∧
        digits[2 * k + 1]? = some l ∧ b.toNat = 16 * digitValue h + digitValue l) := by
  intro digits bad
  by_cases empty : digits = []
  · refine .inl ⟨.inl empty, ?_⟩
    unfold parseImage
    rw [show text.toList.filter (fun c => !c.isWhitespace) = [] from empty]
  · rw [parseImage_of_ne_nil text empty]
    by_cases h : digits.length % 2 = 1 ∨ ∃ c ∈ digits, c ∉ hexDigits
    · exact .inl ⟨.inr h, hexPairs_eq_none _ h⟩
    · refine .inr ⟨fun hb => hb.elim empty h, ?_⟩
      rw [not_or] at h
      exact hexPairs_eq_some digits (by omega) fun c hc => not_not.1 fun hn => h.2 ⟨c, hc, hn⟩

/-- The three answers of `load_rom`. -/
theorem loadRom_cases (text : String) (start : Word) (s : State) :
    (parseImage text = none ∧ loadRom text start s = .error .invalidHexInput) ∨
    (∃ bs, parseImage text = some bs ∧ 32762 < bs.length ∧
      loadRom text start s = .error .imageTooLong) ∨
    (∃ bs, parseImage text = some bs ∧ bs.length ≤ 32762 ∧
      loadRom text start s = .ok ((s.writeBytes 0x8000 bs).writeWord 0xFFFC start)) := by
  unfold loadRom
  cases h : parseImage text with
  | none => exact .inl ⟨rfl, rfl⟩
  | some bs =>
    refine .inr ?_
    by_cases long : 32762 < bs.length
    · exact .inl ⟨bs, rfl, long, if_pos long⟩
    · exact .inr ⟨bs, rfl, Nat.le_of_not_lt long, if_neg long⟩

/-! ### A run of bytes -/

@[simp] theorem State.writeBytes_nil (s : State) (a : Word) : s.writeBytes a [] = s := rfl

@[simp] theorem State.writeBytes_cons (s : State) (a : Word) (b : Byte) (bs : List Byte) :
    s.writeBytes a (b :: bs) = (s.write a b).writeBytes (a + 1) bs := rfl

/-- Bytes written at ascending addresses that do not wrap: each cell of the range holds its byte, every other
cell is as before, memory stays canonical, and nothing but memory is changed. -/
theorem State.writeBytes_spec (bs : List Byte) : ∀ (s : State) (a : Word), s.mem.wf = true →
    a.toNat + bs.length ≤ 65536 →
    (s.writeBytes a bs).mem.wf = true ∧
    { s.writeBytes a bs with mem := s.mem } = s ∧
    (∀ (k : Nat) (b : Byte), bs[k]? = some b →
      (s.writeBytes a bs).read (BitVec.ofNat 16 (a.toNat + k)) = b) ∧
    ∀ c : Word, ¬ (a.toNat ≤ c.toNat ∧ c.toNat < a.toNat + bs.length) →
      (s.writeBytes a bs).read c = s.read c := by
  induction bs with
  | nil => exact fun s a wf _ => ⟨wf, rfl, fun k b h => by simp at h, fun c _ => rfl⟩
  | cons b bs ih =>
    intro s a wf bound
    simp only [List.length_cons] at bound ⊢
    by_cases last : bs = []
    · subst last
      refine ⟨State.write_mem_wf s wf a b, rfl, ?_, ?_⟩
      · intro k c hc
        cases k with
        | zero =>
          simp only [Nat.add_zero, BitVec.ofNat_toNat, BitVec.setWidth_eq]
          exact (State.read_write_same s wf a b).trans (by simpa using hc)
        | succ k => simp at hc
      · intro c hc
        exact State.read_write_ne s a c b (fun e => hc (by subst e; simp))
    · have pos : 0 < bs.length := List.length_pos_iff.2 last
      have next : (a + 1).toNat = a.toNat + 1 := by
        rw [BitVec.toNat_add]
        simp
        omega
      obtain ⟨h1, h2, h3, h4⟩ := ih (s.write a b) (a + 1) (State.write_mem_wf s wf a b) (by omega)
      refine ⟨h1, ?_, ?_, ?_⟩
      · exact congrArg (fun t : State => { t with mem := s.mem }) h2
      · intro k c hc
        cases k with
        | zero =>
          have : (s.write a b).read a = c :=
            (State.read_write_same s wf a b).trans (by simpa using hc)
          simp only [Nat.add_zero, BitVec.ofNat_toNat, BitVec.setWidth_eq]
          exact (h4 a (by omega)).trans this
        | succ k =>
          have := h3 k c (by simpa using hc)
          rw [next, Nat.add_assoc, Nat.add_comm 1 k] at this
          exact this
      · intro c hc
        rw [State.writeBytes_cons, h4 c (by omega)]
        exact State.read_write_ne s a c b (fun e => hc (by subst e; omega))

/-! ### The walk (R277) -/

@[simp] theorem walk_zero (s : State) (a : Word) : walk s 0 a = [] := rfl

@[simp] theorem walk_succ (s : State) (n : Nat) (a : Word) :
    walk s (n + 1) a =
      (a, lineAt s a) :: walk s n (a + BitVec.ofNat 16 (instrAt s a).length) := rfl

@[simp] theorem walk_length (s : State) (n : Nat) : ∀ a, (walk s n a).length = n := by
  induction n with
  | zero => exact fun _ => rfl
  | succ n ih => exact fun a => congrArg Nat.succ (ih _)

end Sys2Proof.Machine
end

