-- ==== Sys2Proof/Laws/PerInstr.lean ====
section
/-! SUPPORT. Facts about every instruction as syntax, one lemma per constructor. -/

namespace Sys2Proof.Laws.Encoding

/-- The encoding has the instruction's length, 1 to 3 bytes, opcode first (R70), and the base count is 2 to 7
(R77). -/
def Statement (i : Instr) : Prop :=
  (encode i).length = i.length ∧ i.length ≤ 3 ∧ (encode i).head? = some i.opcode ∧
    2 ≤ baseCycles i ∧ baseCycles i ≤ 7

theorem of_shape (i : Instr) (hb : i.operand.bytes.length = i.operand.length)
    (hl : Nat.ble i.operand.length 2 = true)
    (hc : (Nat.ble 2 (baseCycles i) && Nat.ble (baseCycles i) 7) = true) : Statement i := by
  have hl := Nat.le_of_ble_eq_true hl
  rw [Bool.and_eq_true, Nat.ble_eq, Nat.ble_eq] at hc
  refine ⟨?_, ?_, rfl, hc⟩
  · simp [encode, Instr.length, hb, Nat.add_comm]
  · unfold Instr.length
    omega

theorem lda (o : AluOperand) : Statement (.lda o) := by cases o <;> exact of_shape _ rfl rfl rfl
theorem ldx (o : LdxOperand) : Statement (.ldx o) := by cases o <;> exact of_shape _ rfl rfl rfl
theorem ldy (o : LdyOperand) : Statement (.ldy o) := by cases o <;> exact of_shape _ rfl rfl rfl
theorem sta (o : StaOperand) : Statement (.sta o) := by cases o <;> exact of_shape _ rfl rfl rfl
theorem stx (o : StxOperand) : Statement (.stx o) := by cases o <;> exact of_shape _ rfl rfl rfl
theorem sty (o : StyOperand) : Statement (.sty o) := by cases o <;> exact of_shape _ rfl rfl rfl
theorem tax : Statement .tax := of_shape _ rfl rfl rfl
theorem tay : Statement .tay := of_shape _ rfl rfl rfl
theorem txa : Statement .txa := of_shape _ rfl rfl rfl
theorem tya : Statement .tya := of_shape _ rfl rfl rfl
theorem tsx : Statement .tsx := of_shape _ rfl rfl rfl
theorem txs : Statement .txs := of_shape _ rfl rfl rfl
theorem pha : Statement .pha := of_shape _ rfl rfl rfl
theorem pla : Statement .pla := of_shape _ rfl rfl rfl
theorem php : Statement .php := of_shape _ rfl rfl rfl
theorem plp : Statement .plp := of_shape _ rfl rfl rfl
theorem and (o : AluOperand) : Statement (.and o) := by cases o <;> exact of_shape _ rfl rfl rfl
theorem ora (o : AluOperand) : Statement (.ora o) := by cases o <;> exact of_shape _ rfl rfl rfl
theorem eor (o : AluOperand) : Statement (.eor o) := by cases o <;> exact of_shape _ rfl rfl rfl
theorem adc (o : AluOperand) : Statement (.adc o) := by cases o <;> exact of_shape _ rfl rfl rfl
theorem sbc (o : AluOperand) : Statement (.sbc o) := by cases o <;> exact of_shape _ rfl rfl rfl
theorem cmp (o : AluOperand) : Statement (.cmp o) := by cases o <;> exact of_shape _ rfl rfl rfl
theorem cpx (o : CpOperand) : Statement (.cpx o) := by cases o <;> exact of_shape _ rfl rfl rfl
theorem cpy (o : CpOperand) : Statement (.cpy o) := by cases o <;> exact of_shape _ rfl rfl rfl
theorem inc (o : RmwOperand) : Statement (.inc o) := by cases o <;> exact of_shape _ rfl rfl rfl
theorem dec (o : RmwOperand) : Statement (.dec o) := by cases o <;> exact of_shape _ rfl rfl rfl
theorem inx : Statement .inx := of_shape _ rfl rfl rfl
theorem dex : Statement .dex := of_shape _ rfl rfl rfl
theorem iny : Statement .iny := of_shape _ rfl rfl rfl
theorem dey : Statement .dey := of_shape _ rfl rfl rfl
theorem asl (o : ShiftOperand) : Statement (.asl o) := by cases o <;> exact of_shape _ rfl rfl rfl
theorem lsr (o : ShiftOperand) : Statement (.lsr o) := by cases o <;> exact of_shape _ rfl rfl rfl
theorem rol (o : ShiftOperand) : Statement (.rol o) := by cases o <;> exact of_shape _ rfl rfl rfl
theorem ror (o : ShiftOperand) : Statement (.ror o) := by cases o <;> exact of_shape _ rfl rfl rfl
theorem bcc (offset : Byte) : Statement (.bcc offset) := of_shape _ rfl rfl rfl
theorem bcs (offset : Byte) : Statement (.bcs offset) := of_shape _ rfl rfl rfl
theorem beq (offset : Byte) : Statement (.beq offset) := of_shape _ rfl rfl rfl
theorem bne (offset : Byte) : Statement (.bne offset) := of_shape _ rfl rfl rfl
theorem bmi (offset : Byte) : Statement (.bmi offset) := of_shape _ rfl rfl rfl
theorem bpl (offset : Byte) : Statement (.bpl offset) := of_shape _ rfl rfl rfl
theorem bvc (offset : Byte) : Statement (.bvc offset) := of_shape _ rfl rfl rfl
theorem bvs (offset : Byte) : Statement (.bvs offset) := of_shape _ rfl rfl rfl
theorem jmp (o : JmpOperand) : Statement (.jmp o) := by cases o <;> exact of_shape _ rfl rfl rfl
theorem jsr (target : Word) : Statement (.jsr target) := of_shape _ rfl rfl rfl
theorem rts : Statement .rts := of_shape _ rfl rfl rfl
theorem rti : Statement .rti := of_shape _ rfl rfl rfl
theorem brk : Statement .brk := of_shape _ rfl rfl rfl
theorem clc : Statement .clc := of_shape _ rfl rfl rfl
theorem sec : Statement .sec := of_shape _ rfl rfl rfl
theorem cli : Statement .cli := of_shape _ rfl rfl rfl
theorem sei : Statement .sei := of_shape _ rfl rfl rfl
theorem cld : Statement .cld := of_shape _ rfl rfl rfl
theorem sed : Statement .sed := of_shape _ rfl rfl rfl
theorem clv : Statement .clv := of_shape _ rfl rfl rfl
theorem bit (o : BitOperand) : Statement (.bit o) := by cases o <;> exact of_shape _ rfl rfl rfl
theorem nop : Statement .nop := of_shape _ rfl rfl rfl
theorem unknown (opcode : Byte) : Statement (.unknown opcode) := of_shape _ rfl rfl rfl

end Sys2Proof.Laws.Encoding
end

