-- ==== Sys2Proof/Laws/Run.lean ====
section
/-! SUPPORT. One tick and runs of ticks, seen from outside: the two cases of a tick, and a run unfolded by one
tick. -/

namespace Sys2Proof.Machine

theorem State.afterReset_of_done (s : State) (h : s.resetDone = true) : s.afterReset = s := by
  unfold State.afterReset
  rw [h]
  rfl

theorem State.afterReset_of_not_done (s : State) (h : s.resetDone = false) :
    s.afterReset = s.resetSequence := by
  unfold State.afterReset
  rw [h]
  rfl

@[simp] theorem State.afterReset_resetDone (s : State) : s.afterReset.resetDone = true := by
  unfold State.afterReset
  split
  · assumption
  · rfl

@[simp] theorem State.afterReset_pendingCycles (s : State) :
    s.afterReset.pendingCycles = s.pendingCycles := by
  unfold State.afterReset
  split <;> rfl

@[simp] theorem State.afterReset_mem (s : State) : s.afterReset.mem = s.mem := by
  unfold State.afterReset
  split <;> rfl

@[simp] theorem State.afterReset_unknownNotes (s : State) :
    s.afterReset.unknownNotes = s.unknownNotes := by
  unfold State.afterReset
  split <;> rfl

/-- A tick with cycles pending is the idle step. -/
theorem step_of_pending (s : State) (h : 0 < s.pendingCycles) : step s = .next s.afterReset.idle := by
  unfold step
  exact if_pos (by simpa using h)

/-- A tick with none pending is the fetch step. -/
theorem step_of_ready (s : State) (h : s.pendingCycles = 0) : step s = fetchStep s.afterReset := by
  unfold step
  exact if_neg (by simp [h])

theorem run_zero (s : State) : core.run 0 s = .next s := rfl

/-- A run of `k + 1` ticks whose first tick goes on is a run of `k` ticks from there. -/
theorem run_succ_next (M : Host.Core) (k : Nat) (s u : M.State) (h : M.step s = .next u) :
    M.run (k + 1) s = M.run k u := by
  simp only [Host.Core.run, h]

theorem run_succ {s u : State} (h : step s = .next u) (k : Nat) : core.run (k + 1) s = core.run k u :=
  run_succ_next core k s u h

end Sys2Proof.Machine
end

