-- ==== Sys2Proof/Tests/Slice0.lean ====
section
/-! SUPPORT. Tests. Expected results are the rows of spec/95_test_vectors.md (each step test names its vector),
the columns of spec/opcode_table.json and the examples of the spec's rules; the last part shows, for every
statement with hypotheses, a state and operands that meet them together. -/

namespace Sys2Proof.Tests

open Sys2Proof Sys2Proof.Machine Sys2Proof.Safety

/-! ### Helpers -/

/-- A, X, Y, S, P. -/
structure Regs where
  a : Byte
  x : Byte
  y : Byte
  s : Byte
  p : Byte
  deriving DecidableEq, Repr

/-- A state between ticks (the conventions of 95_test_vectors.md). -/
def start (pc : Word) (code : List Byte) (r : Regs) (cells : List (Word × Byte)) : State :=
  let s : State :=
    { State.reset with
      regA := r.a, regX := r.x, regY := r.y, regS := r.s, regP := r.p, pc := pc, resetDone := true }
  (cells.foldl (fun s c => s.write c.1 c.2) s).writeBytes pc code

/-- One tick leaves these registers, PC, cycle count and cells. -/
def ends (s : State) (r : Regs) (pc : Word) (cycles : Nat) (cells : List (Word × Byte)) : Bool :=
  match step s with
  | .next t =>
    ⟨t.regA, t.regX, t.regY, t.regS, t.regP⟩ == r && t.pc == pc && t.pendingCycles + 1 == cycles &&
      cells.all fun c => t.read c.1 == c.2
  | .fault _ => false
  | .refused _ => false

/-- A row of the decode table: bits, word, instruction, cycles, page-cross penalty. -/
structure Row where
  bits : Nat
  word : Nat
  instr : Instr
  cycles : Nat
  penalty : Bool
  deriving DecidableEq, Repr

/-- Each word decodes to the instruction beside it, which encodes to its bytes and has its cycle columns. -/
def decodesTo (rows : List Row) : Bool :=
  rows.all fun r =>
    decodeTableWord r.bits r.word == some r.instr &&
      encode r.instr ==
        [BitVec.ofNat 8 r.word, BitVec.ofNat 8 (r.word / 256), BitVec.ofNat 8 (r.word / 65536)].take
          (r.bits / 8) &&
      baseCycles r.instr == r.cycles && paysPageCross r.instr == r.penalty

/-! ### Decoding: the words of R74 and their cycle columns, operand bytes 0x34 and 0x12 -/

theorem test_decode_loads_and_stores : decodesTo (
    [
      ⟨16, 0b00110100_10100001, .lda (.indX 0x34), 6, false⟩,
      ⟨16, 0b00110100_10100101, .lda (.zp 0x34), 3, false⟩,
      ⟨16, 0b00110100_10101001, .lda (.imm 0x34), 2, false⟩,
      ⟨24, 0b00010010_00110100_10101101, .lda (.abs 0x1234), 4, false⟩,
      ⟨16, 0b00110100_10110001, .lda (.indY 0x34), 5, true⟩,
      ⟨16, 0b00110100_10110101, .lda (.zpX 0x34), 4, false⟩,
      ⟨24, 0b00010010_00110100_10111001, .lda (.absY 0x1234), 4, true⟩,
      ⟨24, 0b00010010_00110100_10111101, .lda (.absX 0x1234), 4, true⟩,
      ⟨16, 0b00110100_10100010, .ldx (.imm 0x34), 2, false⟩,
      ⟨16, 0b00110100_10100110, .ldx (.zp 0x34), 3, false⟩,
      ⟨24, 0b00010010_00110100_10101110, .ldx (.abs 0x1234), 4, false⟩,
      ⟨16, 0b00110100_10110110, .ldx (.zpY 0x34), 4, false⟩,
      ⟨24, 0b00010010_00110100_10111110, .ldx (.absY 0x1234), 4, true⟩,
      ⟨16, 0b00110100_10100000, .ldy (.imm 0x34), 2, false⟩,
      ⟨16, 0b00110100_10100100, .ldy (.zp 0x34), 3, false⟩,
      ⟨24, 0b00010010_00110100_10101100, .ldy (.abs 0x1234), 4, false⟩,
      ⟨16, 0b00110100_10110100, .ldy (.zpX 0x34), 4, false⟩,
      ⟨24, 0b00010010_00110100_10111100, .ldy (.absX 0x1234), 4, true⟩,
      ⟨16, 0b00110100_10000001, .sta (.indX 0x34), 6, false⟩,
      ⟨16, 0b00110100_10000101, .sta (.zp 0x34), 3, false⟩ ] ++
    [
      ⟨24, 0b00010010_00110100_10001101, .sta (.abs 0x1234), 4, false⟩,
      ⟨16, 0b00110100_10010001, .sta (.indY 0x34), 6, false⟩,
      ⟨16, 0b00110100_10010101, .sta (.zpX 0x34), 4, false⟩,
      ⟨24, 0b00010010_00110100_10011001, .sta (.absY 0x1234), 5, false⟩,
      ⟨24, 0b00010010_00110100_10011101, .sta (.absX 0x1234), 5, false⟩,
      ⟨16, 0b00110100_10000110, .stx (.zp 0x34), 3, false⟩,
      ⟨24, 0b00010010_00110100_10001110, .stx (.abs 0x1234), 4, false⟩,
      ⟨16, 0b00110100_10010110, .stx (.zpY 0x34), 4, false⟩,
      ⟨16, 0b00110100_10000100, .sty (.zp 0x34), 3, false⟩,
      ⟨24, 0b00010010_00110100_10001100, .sty (.abs 0x1234), 4, false⟩,
      ⟨16, 0b00110100_10010100, .sty (.zpX 0x34), 4, false⟩ ]) = true := by decide

theorem test_decode_transfers_and_stack : decodesTo (
    [
      ⟨8, 0b10101010, .tax, 2, false⟩,
      ⟨8, 0b10101000, .tay, 2, false⟩,
      ⟨8, 0b10001010, .txa, 2, false⟩,
      ⟨8, 0b10011000, .tya, 2, false⟩,
      ⟨8, 0b10111010, .tsx, 2, false⟩,
      ⟨8, 0b10011010, .txs, 2, false⟩,
      ⟨8, 0b01001000, .pha, 3, false⟩,
      ⟨8, 0b01101000, .pla, 4, false⟩,
      ⟨8, 0b00001000, .php, 3, false⟩,
      ⟨8, 0b00101000, .plp, 4, false⟩ ]) = true := by decide

theorem test_decode_logical : decodesTo (
    [
      ⟨16, 0b00110100_00100001, .and (.indX 0x34), 6, false⟩,
      ⟨16, 0b00110100_00100101, .and (.zp 0x34), 3, false⟩,
      ⟨16, 0b00110100_00101001, .and (.imm 0x34), 2, false⟩,
      ⟨24, 0b00010010_00110100_00101101, .and (.abs 0x1234), 4, false⟩,
      ⟨16, 0b00110100_00110001, .and (.indY 0x34), 5, true⟩,
      ⟨16, 0b00110100_00110101, .and (.zpX 0x34), 4, false⟩,
      ⟨24, 0b00010010_00110100_00111001, .and (.absY 0x1234), 4, true⟩,
      ⟨24, 0b00010010_00110100_00111101, .and (.absX 0x1234), 4, true⟩,
      ⟨16, 0b00110100_00000001, .ora (.indX 0x34), 6, false⟩,
      ⟨16, 0b00110100_00000101, .ora (.zp 0x34), 3, false⟩,
      ⟨16, 0b00110100_00001001, .ora (.imm 0x34), 2, false⟩,
      ⟨24, 0b00010010_00110100_00001101, .ora (.abs 0x1234), 4, false⟩,
      ⟨16, 0b00110100_00010001, .ora (.indY 0x34), 5, true⟩,
      ⟨16, 0b00110100_00010101, .ora (.zpX 0x34), 4, false⟩,
      ⟨24, 0b00010010_00110100_00011001, .ora (.absY 0x1234), 4, true⟩,
      ⟨24, 0b00010010_00110100_00011101, .ora (.absX 0x1234), 4, true⟩,
      ⟨16, 0b00110100_01000001, .eor (.indX 0x34), 6, false⟩,
      ⟨16, 0b00110100_01000101, .eor (.zp 0x34), 3, false⟩,
      ⟨16, 0b00110100_01001001, .eor (.imm 0x34), 2, false⟩,
      ⟨24, 0b00010010_00110100_01001101, .eor (.abs 0x1234), 4, false⟩ ] ++
    [
      ⟨16, 0b00110100_01010001, .eor (.indY 0x34), 5, true⟩,
      ⟨16, 0b00110100_01010101, .eor (.zpX 0x34), 4, false⟩,
      ⟨24, 0b00010010_00110100_01011001, .eor (.absY 0x1234), 4, true⟩,
      ⟨24, 0b00010010_00110100_01011101, .eor (.absX 0x1234), 4, true⟩,
      ⟨16, 0b00110100_00100100, .bit (.zp 0x34), 3, false⟩,
      ⟨24, 0b00010010_00110100_00101100, .bit (.abs 0x1234), 4, false⟩ ]) = true := by decide

theorem test_decode_arithmetic : decodesTo (
    [
      ⟨16, 0b00110100_01100001, .adc (.indX 0x34), 6, false⟩,
      ⟨16, 0b00110100_01100101, .adc (.zp 0x34), 3, false⟩,
      ⟨16, 0b00110100_01101001, .adc (.imm 0x34), 2, false⟩,
      ⟨24, 0b00010010_00110100_01101101, .adc (.abs 0x1234), 4, false⟩,
      ⟨16, 0b00110100_01110001, .adc (.indY 0x34), 5, true⟩,
      ⟨16, 0b00110100_01110101, .adc (.zpX 0x34), 4, false⟩,
      ⟨24, 0b00010010_00110100_01111001, .adc (.absY 0x1234), 4, true⟩,
      ⟨24, 0b00010010_00110100_01111101, .adc (.absX 0x1234), 4, true⟩,
      ⟨16, 0b00110100_11100001, .sbc (.indX 0x34), 6, false⟩,
      ⟨16, 0b00110100_11100101, .sbc (.zp 0x34), 3, false⟩,
      ⟨16, 0b00110100_11101001, .sbc (.imm 0x34), 2, false⟩,
      ⟨24, 0b00010010_00110100_11101101, .sbc (.abs 0x1234), 4, false⟩,
      ⟨16, 0b00110100_11110001, .sbc (.indY 0x34), 5, true⟩,
      ⟨16, 0b00110100_11110101, .sbc (.zpX 0x34), 4, false⟩,
      ⟨24, 0b00010010_00110100_11111001, .sbc (.absY 0x1234), 4, true⟩,
      ⟨24, 0b00010010_00110100_11111101, .sbc (.absX 0x1234), 4, true⟩,
      ⟨16, 0b00110100_11000001, .cmp (.indX 0x34), 6, false⟩,
      ⟨16, 0b00110100_11000101, .cmp (.zp 0x34), 3, false⟩,
      ⟨16, 0b00110100_11001001, .cmp (.imm 0x34), 2, false⟩,
      ⟨24, 0b00010010_00110100_11001101, .cmp (.abs 0x1234), 4, false⟩ ] ++
    [
      ⟨16, 0b00110100_11010001, .cmp (.indY 0x34), 5, true⟩,
      ⟨16, 0b00110100_11010101, .cmp (.zpX 0x34), 4, false⟩,
      ⟨24, 0b00010010_00110100_11011001, .cmp (.absY 0x1234), 4, true⟩,
      ⟨24, 0b00010010_00110100_11011101, .cmp (.absX 0x1234), 4, true⟩,
      ⟨16, 0b00110100_11100000, .cpx (.imm 0x34), 2, false⟩,
      ⟨16, 0b00110100_11100100, .cpx (.zp 0x34), 3, false⟩,
      ⟨24, 0b00010010_00110100_11101100, .cpx (.abs 0x1234), 4, false⟩,
      ⟨16, 0b00110100_11000000, .cpy (.imm 0x34), 2, false⟩,
      ⟨16, 0b00110100_11000100, .cpy (.zp 0x34), 3, false⟩,
      ⟨24, 0b00010010_00110100_11001100, .cpy (.abs 0x1234), 4, false⟩ ]) = true := by decide

theorem test_decode_increments_and_decrements : decodesTo (
    [
      ⟨16, 0b00110100_11100110, .inc (.zp 0x34), 5, false⟩,
      ⟨24, 0b00010010_00110100_11101110, .inc (.abs 0x1234), 6, false⟩,
      ⟨16, 0b00110100_11110110, .inc (.zpX 0x34), 6, false⟩,
      ⟨24, 0b00010010_00110100_11111110, .inc (.absX 0x1234), 7, false⟩,
      ⟨16, 0b00110100_11000110, .dec (.zp 0x34), 5, false⟩,
      ⟨24, 0b00010010_00110100_11001110, .dec (.abs 0x1234), 6, false⟩,
      ⟨16, 0b00110100_11010110, .dec (.zpX 0x34), 6, false⟩,
      ⟨24, 0b00010010_00110100_11011110, .dec (.absX 0x1234), 7, false⟩,
      ⟨8, 0b11101000, .inx, 2, false⟩,
      ⟨8, 0b11001010, .dex, 2, false⟩,
      ⟨8, 0b11001000, .iny, 2, false⟩,
      ⟨8, 0b10001000, .dey, 2, false⟩ ]) = true := by decide

theorem test_decode_shifts : decodesTo (
    [
      ⟨16, 0b00110100_00000110, .asl (.zp 0x34), 5, false⟩,
      ⟨8, 0b00001010, .asl (.acc), 2, false⟩,
      ⟨24, 0b00010010_00110100_00001110, .asl (.abs 0x1234), 6, false⟩,
      ⟨16, 0b00110100_00010110, .asl (.zpX 0x34), 6, false⟩,
      ⟨24, 0b00010010_00110100_00011110, .asl (.absX 0x1234), 7, false⟩,
      ⟨16, 0b00110100_01000110, .lsr (.zp 0x34), 5, false⟩,
      ⟨8, 0b01001010, .lsr (.acc), 2, false⟩,
      ⟨24, 0b00010010_00110100_01001110, .lsr (.abs 0x1234), 6, false⟩,
      ⟨16, 0b00110100_01010110, .lsr (.zpX 0x34), 6, false⟩,
      ⟨24, 0b00010010_00110100_01011110, .lsr (.absX 0x1234), 7, false⟩,
      ⟨16, 0b00110100_00100110, .rol (.zp 0x34), 5, false⟩,
      ⟨8, 0b00101010, .rol (.acc), 2, false⟩,
      ⟨24, 0b00010010_00110100_00101110, .rol (.abs 0x1234), 6, false⟩,
      ⟨16, 0b00110100_00110110, .rol (.zpX 0x34), 6, false⟩,
      ⟨24, 0b00010010_00110100_00111110, .rol (.absX 0x1234), 7, false⟩,
      ⟨16, 0b00110100_01100110, .ror (.zp 0x34), 5, false⟩,
      ⟨8, 0b01101010, .ror (.acc), 2, false⟩,
      ⟨24, 0b00010010_00110100_01101110, .ror (.abs 0x1234), 6, false⟩,
      ⟨16, 0b00110100_01110110, .ror (.zpX 0x34), 6, false⟩,
      ⟨24, 0b00010010_00110100_01111110, .ror (.absX 0x1234), 7, false⟩ ]) = true := by decide

theorem test_decode_branches_and_jumps : decodesTo (
    [
      ⟨16, 0b00110100_10010000, .bcc 0x34, 2, false⟩,
      ⟨16, 0b00110100_10110000, .bcs 0x34, 2, false⟩,
      ⟨16, 0b00110100_11110000, .beq 0x34, 2, false⟩,
      ⟨16, 0b00110100_11010000, .bne 0x34, 2, false⟩,
      ⟨16, 0b00110100_00110000, .bmi 0x34, 2, false⟩,
      ⟨16, 0b00110100_00010000, .bpl 0x34, 2, false⟩,
      ⟨16, 0b00110100_01010000, .bvc 0x34, 2, false⟩,
      ⟨16, 0b00110100_01110000, .bvs 0x34, 2, false⟩,
      ⟨24, 0b00010010_00110100_01001100, .jmp (.abs 0x1234), 3, false⟩,
      ⟨24, 0b00010010_00110100_01101100, .jmp (.ind 0x1234), 5, false⟩,
      ⟨24, 0b00010010_00110100_00100000, .jsr 0x1234, 6, false⟩,
      ⟨8, 0b01100000, .rts, 6, false⟩ ]) = true := by decide

theorem test_decode_system_and_flags : decodesTo (
    [
      ⟨8, 0b01000000, .rti, 6, false⟩,
      ⟨8, 0b00000000, .brk, 7, false⟩,
      ⟨8, 0b00011000, .clc, 2, false⟩,
      ⟨8, 0b00111000, .sec, 2, false⟩,
      ⟨8, 0b01011000, .cli, 2, false⟩,
      ⟨8, 0b01111000, .sei, 2, false⟩,
      ⟨8, 0b11011000, .cld, 2, false⟩,
      ⟨8, 0b11111000, .sed, 2, false⟩,
      ⟨8, 0b10111000, .clv, 2, false⟩,
      ⟨8, 0b11101010, .nop, 2, false⟩,
      ⟨8, 0b00000010, .unknown 0x02, 2, false⟩,
      ⟨8, 0b10000000, .unknown 0x80, 2, false⟩,
      ⟨8, 0b11111111, .unknown 0xFF, 2, false⟩ ]) = true := by decide

/-! ### One step, from the vectors -/

/-- Vector AM13 (R113). -/
theorem test_lda_indirect_y_crosses_a_page :
    ends (start 0x8000 [0xB1, 0x10] ⟨0x00, 0x00, 0x20, 0xFD, 0x24⟩ [(0x0010, 0xF0), (0x0011, 0x12), (0x1310, 0x44)])
      ⟨0x44, 0x00, 0x20, 0xFD, 0x24⟩ 0x8002 6 [] = true := by decide

/-- Vector AM21 (R103). -/
theorem test_lda_spans_the_top_of_memory :
    ends (start 0xFFFF [0xA9] ⟨0x00, 0x00, 0x00, 0xFD, 0x24⟩ [(0x0000, 0x7E)])
      ⟨0x7E, 0x00, 0x00, 0xFD, 0x24⟩ 0x0001 2 [] = true := by decide

/-- Vector AM4 (R106). -/
theorem test_ldx_zero_page_y_wraps :
    ends (start 0x8000 [0xB6, 0xFF] ⟨0x00, 0x00, 0x01, 0xFD, 0x24⟩ [(0x0000, 0x55), (0x0100, 0xEE)])
      ⟨0x00, 0x55, 0x01, 0xFD, 0x24⟩ 0x8002 4 [] = true := by decide

/-- Vector AM10 (R110). -/
theorem test_ldx_absolute_y_crosses_a_page :
    ends (start 0x8000 [0xBE, 0xFF, 0x12] ⟨0x00, 0x00, 0x01, 0xFD, 0x24⟩ [(0x1300, 0x66)])
      ⟨0x00, 0x66, 0x01, 0xFD, 0x24⟩ 0x8003 5 [] = true := by decide

/-- Vector LS6 (R122). -/
theorem test_ldy_immediate :
    ends (start 0x8000 [0xA0, 0x80] ⟨0x00, 0x00, 0x00, 0xFD, 0x24⟩ [])
      ⟨0x00, 0x00, 0x80, 0xFD, 0xA4⟩ 0x8002 2 [] = true := by decide

/-- Vector LS7 (R122). -/
theorem test_ldy_zero_page_x :
    ends (start 0x8000 [0xB4, 0x10] ⟨0x00, 0x05, 0x00, 0xFD, 0x24⟩ [(0x0015, 0x01)])
      ⟨0x00, 0x05, 0x01, 0xFD, 0x24⟩ 0x8002 4 [] = true := by decide

/-- Vector LS10 (R123). -/
theorem test_sta_into_the_rom_region :
    ends (start 0x8000 [0x8D, 0x02, 0x80] ⟨0xEA, 0x00, 0x00, 0xFD, 0x24⟩ [])
      ⟨0xEA, 0x00, 0x00, 0xFD, 0x24⟩ 0x8003 4 [(0x8002, 0xEA)] = true := by decide

/-- Vector LS11 (R123). -/
theorem test_sta_indexed_indirect :
    ends (start 0x8000 [0x81, 0x20] ⟨0xC3, 0x04, 0x00, 0xFD, 0x24⟩ [(0x0024, 0x00), (0x0025, 0x30)])
      ⟨0xC3, 0x04, 0x00, 0xFD, 0x24⟩ 0x8002 6 [(0x3000, 0xC3)] = true := by decide

/-- Vector LS13 (R124). -/
theorem test_stx_zero_page_y :
    ends (start 0x8000 [0x96, 0xF0] ⟨0x00, 0x7F, 0x20, 0xFD, 0x24⟩ [])
      ⟨0x00, 0x7F, 0x20, 0xFD, 0x24⟩ 0x8002 4 [(0x0010, 0x7F)] = true := by decide

/-- Vector LS14 (R125). -/
theorem test_sty_into_the_brk_vector :
    ends (start 0x8000 [0x8C, 0xFF, 0xFF] ⟨0x00, 0x00, 0x55, 0xFD, 0x24⟩ [])
      ⟨0x00, 0x00, 0x55, 0xFD, 0x24⟩ 0x8003 4 [(0xFFFF, 0x55)] = true := by decide

/-- Vector TS1 (R130). -/
theorem test_tax :
    ends (start 0x8000 [0xAA] ⟨0x00, 0x55, 0x00, 0xFD, 0x24⟩ [])
      ⟨0x00, 0x00, 0x00, 0xFD, 0x26⟩ 0x8001 2 [] = true := by decide

/-- Vector TS2 (R131). -/
theorem test_tay :
    ends (start 0x8000 [0xA8] ⟨0x90, 0x00, 0x00, 0xFD, 0x24⟩ [])
      ⟨0x90, 0x00, 0x90, 0xFD, 0xA4⟩ 0x8001 2 [] = true := by decide

/-- Vector TS3 (R132). -/
theorem test_txa :
    ends (start 0x8000 [0x8A] ⟨0xFF, 0x7F, 0x00, 0xFD, 0xA4⟩ [])
      ⟨0x7F, 0x7F, 0x00, 0xFD, 0x24⟩ 0x8001 2 [] = true := by decide

/-- Vector TS4b (R133). -/
theorem test_tya :
    ends (start 0x8000 [0x98] ⟨0x00, 0x00, 0xFF, 0xFD, 0x24⟩ [])
      ⟨0xFF, 0x00, 0xFF, 0xFD, 0xA4⟩ 0x8001 2 [] = true := by decide

/-- Vector TS4 (R134). -/
theorem test_tsx :
    ends (start 0x8000 [0xBA] ⟨0x00, 0x00, 0x00, 0xFD, 0x24⟩ [])
      ⟨0x00, 0xFD, 0x00, 0xFD, 0xA4⟩ 0x8001 2 [] = true := by decide

/-- Vector TS5b (R135). -/
theorem test_txs_writes_no_flag :
    ends (start 0x8000 [0x9A] ⟨0x00, 0x80, 0x00, 0xFD, 0x26⟩ [])
      ⟨0x00, 0x80, 0x00, 0x80, 0x26⟩ 0x8001 2 [] = true := by decide

/-- Vector TS6 (R136). -/
theorem test_pha_wraps_the_stack :
    ends (start 0x8000 [0x48] ⟨0xAB, 0x00, 0x00, 0x00, 0x24⟩ [])
      ⟨0xAB, 0x00, 0x00, 0xFF, 0x24⟩ 0x8001 3 [(0x0100, 0xAB)] = true := by decide

/-- Vector TS7 (R137). -/
theorem test_pla_wraps_the_stack :
    ends (start 0x8000 [0x68] ⟨0x11, 0x00, 0x00, 0xFF, 0x24⟩ [(0x0100, 0x00)])
      ⟨0x00, 0x00, 0x00, 0x00, 0x26⟩ 0x8001 4 [] = true := by decide

/-- Vector TS8 (R138). -/
theorem test_php_pushes_b_and_u :
    ends (start 0x8000 [0x08] ⟨0x00, 0x00, 0x00, 0xFD, 0xE5⟩ [])
      ⟨0x00, 0x00, 0x00, 0xFC, 0xE5⟩ 0x8001 3 [(0x01FD, 0xF5)] = true := by decide

/-- Vector TS10 (R139). -/
theorem test_plp_sets_u :
    ends (start 0x8000 [0x28] ⟨0x00, 0x00, 0x00, 0xFC, 0x24⟩ [(0x01FD, 0xCF)])
      ⟨0x00, 0x00, 0x00, 0xFD, 0xEF⟩ 0x8001 4 [] = true := by decide

/-- Vector TS12 (R139). -/
theorem test_plp_clears_b :
    ends (start 0x8000 [0x28] ⟨0x00, 0x00, 0x00, 0xFC, 0xEF⟩ [(0x01FD, 0x30)])
      ⟨0x00, 0x00, 0x00, 0xFD, 0x20⟩ 0x8001 4 [] = true := by decide

/-- Vector LG2 (R140). -/
theorem test_and_keeps_carry :
    ends (start 0x8000 [0x29, 0x00] ⟨0xFF, 0x00, 0x00, 0xFD, 0xA5⟩ [])
      ⟨0x00, 0x00, 0x00, 0xFD, 0x27⟩ 0x8002 2 [] = true := by decide

/-- Vector LG3 (R140). -/
theorem test_and_zero_page :
    ends (start 0x8000 [0x25, 0x10] ⟨0x81, 0x00, 0x00, 0xFD, 0x24⟩ [(0x0010, 0x80)])
      ⟨0x80, 0x00, 0x00, 0xFD, 0xA4⟩ 0x8002 3 [] = true := by decide

/-- Vector LG4 (R141). -/
theorem test_ora :
    ends (start 0x8000 [0x09, 0x80] ⟨0x0F, 0x00, 0x00, 0xFD, 0x24⟩ [])
      ⟨0x8F, 0x00, 0x00, 0xFD, 0xA4⟩ 0x8002 2 [] = true := by decide

/-- Vector LG7 (R142). -/
theorem test_eor :
    ends (start 0x8000 [0x49, 0xAA] ⟨0xAA, 0x00, 0x00, 0xFD, 0x65⟩ [])
      ⟨0x00, 0x00, 0x00, 0xFD, 0x67⟩ 0x8002 2 [] = true := by decide

/-- Vector LG8 (R143). -/
theorem test_bit_takes_n_and_v_from_the_operand :
    ends (start 0x8000 [0x24, 0x10] ⟨0x01, 0x00, 0x00, 0xFD, 0x24⟩ [(0x0010, 0xC0)])
      ⟨0x01, 0x00, 0x00, 0xFD, 0xE6⟩ 0x8002 3 [] = true := by decide

/-- Vector LG9 (R143). -/
theorem test_bit_absolute :
    ends (start 0x8000 [0x2C, 0x00, 0x02] ⟨0xFF, 0x00, 0x00, 0xFD, 0xE6⟩ [(0x0200, 0x3F)])
      ⟨0xFF, 0x00, 0x00, 0xFD, 0x24⟩ 0x8003 4 [] = true := by decide

/-- Vector AR1 (R150). -/
theorem test_adc_overflows :
    ends (start 0x8000 [0x69, 0x50] ⟨0x50, 0x00, 0x00, 0xFD, 0x24⟩ [])
      ⟨0xA0, 0x00, 0x00, 0xFD, 0xE4⟩ 0x8002 2 [] = true := by decide

/-- Vector AR14 (R151). -/
theorem test_adc_decimal_carries :
    ends (start 0x8000 [0x69, 0x92] ⟨0x81, 0x00, 0x00, 0xFD, 0x2C⟩ [])
      ⟨0x73, 0x00, 0x00, 0xFD, 0x6D⟩ 0x8002 2 [] = true := by decide

/-- Vector AR10 (R152). -/
theorem test_sbc_overflows :
    ends (start 0x8000 [0xE9, 0x01] ⟨0x80, 0x00, 0x00, 0xFD, 0x25⟩ [])
      ⟨0x7F, 0x00, 0x00, 0xFD, 0x65⟩ 0x8002 2 [] = true := by decide

/-- Vector AR19 (R153). -/
theorem test_sbc_decimal_borrows :
    ends (start 0x8000 [0xE9, 0x01] ⟨0x00, 0x00, 0x00, 0xFD, 0x2D⟩ [])
      ⟨0x99, 0x00, 0x00, 0xFD, 0xAC⟩ 0x8002 2 [] = true := by decide

/-- Vector AR22 (R154). -/
theorem test_cmp_less :
    ends (start 0x8000 [0xC9, 0x01] ⟨0x00, 0x00, 0x00, 0xFD, 0x24⟩ [])
      ⟨0x00, 0x00, 0x00, 0xFD, 0xA4⟩ 0x8002 2 [] = true := by decide

/-- Vector AR25 (R154). -/
theorem test_cmp_ignores_decimal :
    ends (start 0x8000 [0xC9, 0x10] ⟨0x20, 0x00, 0x00, 0xFD, 0x2C⟩ [])
      ⟨0x20, 0x00, 0x00, 0xFD, 0x2D⟩ 0x8002 2 [] = true := by decide

/-- Vector AR26 (R155). -/
theorem test_cpx_less :
    ends (start 0x8000 [0xE0, 0x0A] ⟨0x00, 0x05, 0x00, 0xFD, 0x24⟩ [])
      ⟨0x00, 0x05, 0x00, 0xFD, 0xA4⟩ 0x8002 2 [] = true := by decide

/-- Vector AR27 (R156). -/
theorem test_cpy_greater :
    ends (start 0x8000 [0xC0, 0x7F] ⟨0x00, 0x00, 0xFF, 0xFD, 0x24⟩ [])
      ⟨0x00, 0x00, 0xFF, 0xFD, 0xA5⟩ 0x8002 2 [] = true := by decide

/-- Vector AM18 (R109). -/
theorem test_inc_absolute_x_pays_no_page_penalty :
    ends (start 0x8000 [0xFE, 0xF0, 0x12] ⟨0x00, 0x20, 0x00, 0xFD, 0x24⟩ [(0x1310, 0x7F)])
      ⟨0x00, 0x20, 0x00, 0xFD, 0xA4⟩ 0x8003 7 [(0x1310, 0x80)] = true := by decide

/-- Vector ID2 (R160). -/
theorem test_inc_absolute :
    ends (start 0x8000 [0xEE, 0x00, 0x02] ⟨0x00, 0x00, 0x00, 0xFD, 0x65⟩ [(0x0200, 0x7F)])
      ⟨0x00, 0x00, 0x00, 0xFD, 0xE5⟩ 0x8003 6 [(0x0200, 0x80)] = true := by decide

/-- Vector ID4 (R161). -/
theorem test_dec_zero_page_x :
    ends (start 0x8000 [0xD6, 0x10] ⟨0x00, 0x01, 0x00, 0xFD, 0x24⟩ [(0x0011, 0x01)])
      ⟨0x00, 0x01, 0x00, 0xFD, 0x26⟩ 0x8002 6 [(0x0011, 0x00)] = true := by decide

/-- Vector ID5 (R162). -/
theorem test_inx_wraps :
    ends (start 0x8000 [0xE8] ⟨0x00, 0xFF, 0x00, 0xFD, 0x24⟩ [])
      ⟨0x00, 0x00, 0x00, 0xFD, 0x26⟩ 0x8001 2 [] = true := by decide

/-- Vector ID6 (R163). -/
theorem test_dex_wraps :
    ends (start 0x8000 [0xCA] ⟨0x00, 0x00, 0x00, 0xFD, 0x24⟩ [])
      ⟨0x00, 0xFF, 0x00, 0xFD, 0xA4⟩ 0x8001 2 [] = true := by decide

/-- Vector ID8 (R164). -/
theorem test_iny :
    ends (start 0x8000 [0xC8] ⟨0x00, 0x00, 0x7F, 0xFD, 0x24⟩ [])
      ⟨0x00, 0x00, 0x80, 0xFD, 0xA4⟩ 0x8001 2 [] = true := by decide

/-- Vector ID9 (R165). -/
theorem test_dey_wraps :
    ends (start 0x8000 [0x88] ⟨0x00, 0x00, 0x00, 0xFD, 0x24⟩ [])
      ⟨0x00, 0x00, 0xFF, 0xFD, 0xA4⟩ 0x8001 2 [] = true := by decide

/-- Vector SH1 (R166). -/
theorem test_asl_accumulator :
    ends (start 0x8000 [0x0A] ⟨0x81, 0x00, 0x00, 0xFD, 0x24⟩ [])
      ⟨0x02, 0x00, 0x00, 0xFD, 0x25⟩ 0x8001 2 [] = true := by decide

/-- Vector SH3 (R166). -/
theorem test_asl_zero_page :
    ends (start 0x8000 [0x06, 0x10] ⟨0x33, 0x00, 0x00, 0xFD, 0x25⟩ [(0x0010, 0x40)])
      ⟨0x33, 0x00, 0x00, 0xFD, 0xA4⟩ 0x8002 5 [(0x0010, 0x80)] = true := by decide

/-- Vector SH5 (R167). -/
theorem test_lsr_accumulator :
    ends (start 0x8000 [0x4A] ⟨0x01, 0x00, 0x00, 0xFD, 0xA4⟩ [])
      ⟨0x00, 0x00, 0x00, 0xFD, 0x27⟩ 0x8001 2 [] = true := by decide

/-- Vector SH6 (R167). -/
theorem test_lsr_absolute :
    ends (start 0x8000 [0x4E, 0x00, 0x02] ⟨0x00, 0x00, 0x00, 0xFD, 0x24⟩ [(0x0200, 0xFE)])
      ⟨0x00, 0x00, 0x00, 0xFD, 0x24⟩ 0x8003 6 [(0x0200, 0x7F)] = true := by decide

/-- Vector SH9 (R168). -/
theorem test_rol_takes_the_carry_in :
    ends (start 0x8000 [0x2A] ⟨0x00, 0x00, 0x00, 0xFD, 0x25⟩ [])
      ⟨0x01, 0x00, 0x00, 0xFD, 0x24⟩ 0x8001 2 [] = true := by decide

/-- Vector SH10 (R168). -/
theorem test_rol_absolute_x :
    ends (start 0x8000 [0x3E, 0xF0, 0x12] ⟨0x00, 0x20, 0x00, 0xFD, 0x25⟩ [(0x1310, 0x55)])
      ⟨0x00, 0x20, 0x00, 0xFD, 0xA4⟩ 0x8003 7 [(0x1310, 0xAB)] = true := by decide

/-- Vector SH11 (R169). -/
theorem test_ror_takes_the_carry_in :
    ends (start 0x8000 [0x6A] ⟨0x01, 0x00, 0x00, 0xFD, 0x25⟩ [])
      ⟨0x80, 0x00, 0x00, 0xFD, 0xA5⟩ 0x8001 2 [] = true := by decide

/-- Vector SH14 (R169). -/
theorem test_ror_zero_page :
    ends (start 0x8000 [0x66, 0x10] ⟨0x00, 0x00, 0x00, 0xFD, 0x25⟩ [(0x0010, 0x02)])
      ⟨0x00, 0x00, 0x00, 0xFD, 0xA4⟩ 0x8002 5 [(0x0010, 0x81)] = true := by decide

/-- Vector BJ1 (R171). -/
theorem test_bcc_taken :
    ends (start 0x8000 [0x90, 0x04] ⟨0x00, 0x00, 0x00, 0xFD, 0x24⟩ [])
      ⟨0x00, 0x00, 0x00, 0xFD, 0x24⟩ 0x8006 3 [] = true := by decide

/-- Vector BJ2 (R171). -/
theorem test_bcc_not_taken :
    ends (start 0x8000 [0x90, 0x04] ⟨0x00, 0x00, 0x00, 0xFD, 0x25⟩ [])
      ⟨0x00, 0x00, 0x00, 0xFD, 0x25⟩ 0x8002 2 [] = true := by decide

/-- Vector BJ3 (R172). -/
theorem test_bcs_backwards :
    ends (start 0x8010 [0xB0, 0xFC] ⟨0x00, 0x00, 0x00, 0xFD, 0x25⟩ [])
      ⟨0x00, 0x00, 0x00, 0xFD, 0x25⟩ 0x800E 3 [] = true := by decide

/-- Vector BJ4 (R173). -/
theorem test_beq_across_a_page_of_its_own :
    ends (start 0x80FE [0xF0, 0x7F] ⟨0x00, 0x00, 0x00, 0xFD, 0x26⟩ [])
      ⟨0x00, 0x00, 0x00, 0xFD, 0x26⟩ 0x817F 3 [] = true := by decide

/-- Vector BJ10 (R174). -/
theorem test_bne_backwards_across_a_page :
    ends (start 0x80FF [0xD0, 0xFC] ⟨0x00, 0x00, 0x00, 0xFD, 0x24⟩ [])
      ⟨0x00, 0x00, 0x00, 0xFD, 0x24⟩ 0x80FD 4 [] = true := by decide

/-- Vector BJ10b (R174). -/
theorem test_bne_across_a_page :
    ends (start 0x80FD [0xD0, 0x02] ⟨0x00, 0x00, 0x00, 0xFD, 0x24⟩ [])
      ⟨0x00, 0x00, 0x00, 0xFD, 0x24⟩ 0x8101 4 [] = true := by decide

/-- Vector BJ6 (R175). -/
theorem test_bmi_across_a_page :
    ends (start 0x80F0 [0x30, 0x10] ⟨0x00, 0x00, 0x00, 0xFD, 0xA4⟩ [])
      ⟨0x00, 0x00, 0x00, 0xFD, 0xA4⟩ 0x8102 4 [] = true := by decide

/-- Vector BJ7 (R176). -/
theorem test_bpl_backwards :
    ends (start 0x8000 [0x10, 0x80] ⟨0x00, 0x00, 0x00, 0xFD, 0x24⟩ [])
      ⟨0x00, 0x00, 0x00, 0xFD, 0x24⟩ 0x7F82 4 [] = true := by decide

/-- Vector BJ10c (R176). -/
theorem test_bpl_wraps_the_address_space :
    ends (start 0xFFF0 [0x10, 0x10] ⟨0x00, 0x00, 0x00, 0xFD, 0x24⟩ [])
      ⟨0x00, 0x00, 0x00, 0xFD, 0x24⟩ 0x0002 4 [] = true := by decide

/-- Vector BJ8 (R177). -/
theorem test_bvc_to_the_next_instruction :
    ends (start 0x9000 [0x50, 0x00] ⟨0x00, 0x00, 0x00, 0xFD, 0x24⟩ [])
      ⟨0x00, 0x00, 0x00, 0xFD, 0x24⟩ 0x9002 3 [] = true := by decide

/-- Vector BJ9 (R178). -/
theorem test_bvs_not_taken :
    ends (start 0x9000 [0x70, 0x7F] ⟨0x00, 0x00, 0x00, 0xFD, 0x24⟩ [])
      ⟨0x00, 0x00, 0x00, 0xFD, 0x24⟩ 0x9002 2 [] = true := by decide

/-- Vector BJ9b (R178). -/
theorem test_bvs_to_itself :
    ends (start 0x9000 [0x70, 0xFE] ⟨0x00, 0x00, 0x00, 0xFD, 0x64⟩ [])
      ⟨0x00, 0x00, 0x00, 0xFD, 0x64⟩ 0x9000 3 [] = true := by decide

/-- Vector BJ11 (R180). -/
theorem test_jmp_absolute :
    ends (start 0x8000 [0x4C, 0x00, 0x90] ⟨0x00, 0x00, 0x00, 0xFD, 0x24⟩ [])
      ⟨0x00, 0x00, 0x00, 0xFD, 0x24⟩ 0x9000 3 [] = true := by decide

/-- Vector AM20 (R111). -/
theorem test_jmp_indirect_stays_in_the_page :
    ends (start 0x8000 [0x6C, 0xFF, 0x80] ⟨0x00, 0x00, 0x00, 0xFD, 0x24⟩ [(0x80FF, 0xCD), (0x8100, 0xEE)])
      ⟨0x00, 0x00, 0x00, 0xFD, 0x24⟩ 0x6CCD 5 [] = true := by decide

/-- Vector BJ13 (R181). -/
theorem test_jsr :
    ends (start 0x8000 [0x20, 0x10, 0x80] ⟨0x00, 0x00, 0x00, 0xFD, 0x24⟩ [])
      ⟨0x00, 0x00, 0x00, 0xFB, 0x24⟩ 0x8010 6 [(0x01FD, 0x80), (0x01FC, 0x02)] = true := by decide

/-- Vector BJ13b (R181). -/
theorem test_jsr_wraps_the_stack :
    ends (start 0xFFFD [0x20, 0x34, 0x12] ⟨0x00, 0x00, 0x00, 0x00, 0x24⟩ [])
      ⟨0x00, 0x00, 0x00, 0xFE, 0x24⟩ 0x1234 6 [(0x0100, 0xFF), (0x01FF, 0xFF)] = true := by decide

/-- Vector BJ15 (R182). -/
theorem test_rts_wraps_the_stack :
    ends (start 0x8000 [0x60] ⟨0x00, 0x00, 0x00, 0xFE, 0x24⟩ [(0x0100, 0xFF), (0x01FF, 0xFF)])
      ⟨0x00, 0x00, 0x00, 0x00, 0x24⟩ 0x0000 6 [] = true := by decide

/-- Vector SY1 (R190). -/
theorem test_brk :
    ends (start 0x8000 [0x00, 0xEA] ⟨0x00, 0x00, 0x00, 0xFD, 0x24⟩ [(0xFFFE, 0x00), (0xFFFF, 0x90)])
      ⟨0x00, 0x00, 0x00, 0xFA, 0x24⟩ 0x9000 7 [(0x01FD, 0x80), (0x01FC, 0x02), (0x01FB, 0x34)] = true := by decide

/-- Vector SY2 (R190). -/
theorem test_brk_wraps_the_stack :
    ends (start 0x1234 [0x00, 0xEA] ⟨0x00, 0x00, 0x00, 0x01, 0xE3⟩ [(0xFFFE, 0x34), (0xFFFF, 0x12)])
      ⟨0x00, 0x00, 0x00, 0xFE, 0xE7⟩ 0x1234 7 [(0x0101, 0x12), (0x0100, 0x36), (0x01FF, 0xF3)] = true := by decide

/-- Vector SY4 (R191). -/
theorem test_rti :
    ends (start 0x9000 [0x40] ⟨0x00, 0x00, 0x00, 0xFE, 0x24⟩ [(0x0100, 0xCD), (0x0101, 0xAB), (0x01FF, 0xFF)])
      ⟨0x00, 0x00, 0x00, 0x01, 0xEF⟩ 0xABCD 6 [] = true := by decide

/-- Vector SY5 (R192). -/
theorem test_clc :
    ends (start 0x8000 [0x18] ⟨0x00, 0x00, 0x00, 0xFD, 0x25⟩ [])
      ⟨0x00, 0x00, 0x00, 0xFD, 0x24⟩ 0x8001 2 [] = true := by decide

/-- Vector SY6 (R193). -/
theorem test_sec :
    ends (start 0x8000 [0x38] ⟨0x00, 0x00, 0x00, 0xFD, 0x24⟩ [])
      ⟨0x00, 0x00, 0x00, 0xFD, 0x25⟩ 0x8001 2 [] = true := by decide

/-- Vector SY7 (R194). -/
theorem test_cli :
    ends (start 0x8000 [0x58] ⟨0x00, 0x00, 0x00, 0xFD, 0x24⟩ [])
      ⟨0x00, 0x00, 0x00, 0xFD, 0x20⟩ 0x8001 2 [] = true := by decide

/-- Vector SY8 (R195). -/
theorem test_sei :
    ends (start 0x8000 [0x78] ⟨0x00, 0x00, 0x00, 0xFD, 0x20⟩ [])
      ⟨0x00, 0x00, 0x00, 0xFD, 0x24⟩ 0x8001 2 [] = true := by decide

/-- Vector SY9 (R196). -/
theorem test_cld :
    ends (start 0x8000 [0xD8] ⟨0x00, 0x00, 0x00, 0xFD, 0x2C⟩ [])
      ⟨0x00, 0x00, 0x00, 0xFD, 0x24⟩ 0x8001 2 [] = true := by decide

/-- Vector SY10 (R197). -/
theorem test_sed :
    ends (start 0x8000 [0xF8] ⟨0x00, 0x00, 0x00, 0xFD, 0x24⟩ [])
      ⟨0x00, 0x00, 0x00, 0xFD, 0x2C⟩ 0x8001 2 [] = true := by decide

/-- Vector SY11 (R198). -/
theorem test_clv :
    ends (start 0x8000 [0xB8] ⟨0x00, 0x00, 0x00, 0xFD, 0x64⟩ [])
      ⟨0x00, 0x00, 0x00, 0xFD, 0x24⟩ 0x8001 2 [] = true := by decide

/-- Vector SY11b (R199). -/
theorem test_nop :
    ends (start 0x8000 [0xEA] ⟨0x12, 0x34, 0x56, 0xFD, 0xE7⟩ [])
      ⟨0x12, 0x34, 0x56, 0xFD, 0xE7⟩ 0x8001 2 [] = true := by decide

/-- Vector SY12 (R201). -/
theorem test_unknown_opcode :
    ends (start 0x8000 [0x02, 0xFF, 0xFF] ⟨0x12, 0x00, 0x00, 0xFD, 0xE7⟩ [])
      ⟨0x12, 0x00, 0x00, 0xFD, 0xE7⟩ 0x8001 2 [] = true := by decide

/-! ### The clock, the host, the disassembler -/

/-- Vector CK2: the first tick of a machine with nothing loaded resets and runs the BRK at 0x0000. -/
theorem test_first_tick :
    ends State.reset ⟨0x00, 0x00, 0x00, 0xFA, 0x24⟩ 0x0000 7
      [(0x01FD, 0x00), (0x01FC, 0x02), (0x01FB, 0x34)] = true := by decide

/-- Rule R211. -/
theorem test_idle_tick :
    step { State.reset with resetDone := true, pendingCycles := 3 } =
      .next { State.reset with resetDone := true, pendingCycles := 2 } := by rfl

/-- Vector SY12's note. -/
theorem test_unknown_opcode_note :
    exec (.unknown 0x02) { State.reset with pc := 0x8001 } =
      .next { State.reset with
        pc := 0x8001, pendingCycles := 1, unknownNotes := [{ addr := 0x8000, byte := 0x02 }] } := by rfl

/-- The instruction placed for the first tick is the one it runs. -/
theorem test_with_fetch_word :
    ends (State.reset.withFetchWord 16 0x01A9) ⟨0x01, 0x00, 0x00, 0xFD, 0x24⟩ 0x0002 2 [] = true ∧
    ends (State.reset.withFetchWord 24 0x12348D) ⟨0x00, 0x00, 0x00, 0xFD, 0x24⟩ 0x0003 4 [] = true := by
  decide

/-- Scenario S1 up to its first fetch: the program loaded through `load_rom`. -/
theorem test_load_rom :
    (match loadRom "A9 01 8d\n00 02" 0x8000 State.reset with
     | .ok s => ends s ⟨0x01, 0x00, 0x00, 0xFD, 0x24⟩ 0x8002 2 [(0x8003, 0x00), (0x8004, 0x02), (0xFFFD, 0x80)]
     | .error _ => false) = true := by decide

/-- Rule R272: no digit, an odd number of digits, a character that is no digit. -/
theorem test_load_rom_rejects :
    loadRom " " 0x8000 State.reset = .error .invalidHexInput ∧
    loadRom "A9 0" 0x8000 State.reset = .error .invalidHexInput ∧
    loadRom "A9 0G" 0x8000 State.reset = .error .invalidHexInput := ⟨rfl, rfl, rfl⟩

/-- The two lines of rule R277's example. -/
theorem test_disassembly :
    getDisassemblyRange (State.reset.writeBytes 0x8000 [0xA9, 0x01, 0x8D, 0x00, 0x02]) 0x8000 2 =
      [(0x8000, "8000  A9 01  LDA #$01"), (0x8002, "8002  8D 00 02  STA $0200")] := by decide

/-! ### Well-formedness -/

/-- A documented opcode byte is no UnknownOpcode. -/
theorem test_wf_refuses_a_documented_byte : (Instr.unknown 0xA9).wf = false := by decide

/-! ### A witness for every statement with hypotheses -/

/-- LDA ($10),Y at 0x8000, its pointer in page zero; D and C clear. -/
def w : State :=
  start 0x8000 [0xB1, 0x10] ⟨0x15, 0x00, 0x20, 0xFD, 0x24⟩ [(0x0010, 0xF0), (0x0011, 0x12), (0x1310, 0x27)]

/-- The same with D set. -/
def wd : State :=
  start 0x8000 [0xB1, 0x10] ⟨0x15, 0x00, 0x20, 0xFD, 0x2C⟩ [(0x0010, 0xF0), (0x0011, 0x12), (0x1310, 0x27)]

theorem test_w_inv : Inv w := ⟨by decide, by decide, by decide, by decide, by decide⟩

theorem test_witness_DecodeOfEncode :
    (Instr.lda (.indY 0xFF)).wf = true ∧ (Instr.sta (.abs 0xFFFF)).wf = true ∧
      (Instr.unknown 0xFF).wf = true := by decide

theorem test_witness_UnknownOpcodesAreR75 :
    (0x02 : Byte) ∈ unknownBytes ∧ decodeBytes 0x02 0xFF 0xFF = .unknown 0x02 ∧
      (0x00 : Byte) ∉ unknownBytes := by decide

theorem test_witness_OperandValues :
    (evaluate w (.memory (.indY 0x10))).effective = .address 0x1310 ∧
      (evaluate w (.memory (.zp 0xFF))).effective = .address 0x00FF := by decide

theorem test_witness_PageCrossing :
    crossed 0x12E0 (0x12E0 + (0x1F : Byte).setWidth 16) = 0 ∧
      crossed 0x12E0 (0x12E0 + (0x20 : Byte).setWidth 16) = 1 ∧
      crossed 0xFFFF (0xFFFF + (0x01 : Byte).setWidth 16) = 1 := by decide

/-- ReadAfterWrite, PushGoesDownPageOne, PopComesBackUp, StoresWriteTheirCell, PushesStoreOnTheStack,
PullsLoadFromTheStack, IncAndDecModifyTheirCell, ShiftsAndRotates, CallAndReturn and BrkTakesTheTrap assume this
alone. -/
theorem test_witness_canonical_memory : w.mem.wf = true ∧ w.mem ≠ [] := by decide

theorem test_witness_EqualReadsEqualMemory :
    Memory.wf (cellWrite [(5, 2)] 3 1) = true ∧ Memory.wf [(3, 1), (5, 2)] = true ∧
      ∀ a : Word, cellRead (cellWrite [(5, 2)] 3 1) a.toNat = cellRead [(3, 1), (5, 2)] a.toNat :=
  ⟨by decide, by decide, fun _ => rfl⟩

theorem test_witness_WordAccesses :
    w.mem.wf = true ∧ (0x02FE : Word).toNat % 256 ≠ 255 ∧ (0x02FF : Word).toNat % 256 = 255 := by decide

theorem test_witness_TickRunsTheDecodedInstruction :
    Ready w ∧ (Instr.lda (.indY 0x10)).wf = true ∧
      decode [w.read w.pc, w.read (w.pc + 1), w.read (w.pc + 2)] = .ok (.lda (.indY 0x10), [0x00]) :=
  ⟨⟨rfl, rfl⟩, rfl, rfl⟩

theorem test_witness_EncodedBytesRun :
    Ready w ∧ (Instr.lda (.indY 0x10)).wf = true ∧
      ∀ (k : Nat) (b : Byte), (encode (.lda (.indY 0x10)))[k]? = some b →
        w.read (w.pc + BitVec.ofNat 16 k) = b := by
  refine ⟨⟨rfl, rfl⟩, rfl, fun k b h => ?_⟩
  match k, h with
  | 0, h => exact Option.some.inj h
  | 1, h => exact Option.some.inj h
  | n + 2, h => cases h

theorem test_witness_FirstTickResets : State.reset.resetDone = false := rfl

theorem test_witness_IdleTickOnlyCountsDown :
    ({ w with pendingCycles := 1 } : State).resetDone = true ∧
      0 < ({ w with pendingCycles := 1 } : State).pendingCycles := by decide

theorem test_witness_InstructionOccupiesItsTicks : Ready w := ⟨rfl, rfl⟩

/-- A taken branch over a page, whose extra cycles are not 0, and an instruction without extra. -/
theorem test_witness_CyclesOfEveryInstruction :
    (∃ t, exec (.bpl 0x80) w = .next t ∧ t.pendingCycles = 3) ∧
      ∃ t, exec (.lda (.indY 0x10)) w = .next t ∧ t.pendingCycles = 5 :=
  ⟨⟨_, rfl, rfl⟩, ⟨_, rfl, rfl⟩⟩

theorem test_witness_TickKeepsInvariant :
    (Inv w ∧ ∃ t, step w = .next t) ∧ (Inv State.reset ∧ ∃ t, step State.reset = .next t) :=
  ⟨⟨test_w_inv, _, rfl⟩, ⟨by decide, by decide, by decide, by decide, by decide⟩, _, rfl⟩

/-- An image of one byte and the reset vector 0x8000 are an admitted start memory. -/
theorem test_witness_EveryRunIsSafe :
    Launch LoadedMemory { State.reset with mem := [(0x8000, 0xEA), (0xFFFD, 0x80)] } := by
  refine ⟨[(0x8000, 0xEA), (0xFFFD, 0x80)], by decide, fun a h1 h2 h3 => ?_, rfl⟩
  rw [cellRead_cons, cellRead_cons, if_neg, if_neg]
  · rfl
  · exact fun h => h3 (BitVec.eq_of_toNat_eq h)
  · exact fun h => h1 (by rw [BitVec.le_def, BitVec.le_def, h]; decide)

theorem test_witness_EveryInstructionStaysInItsFrame :
    transfersControl (.sta (.abs 0x1234)) = false ∧ transfersControl .rts = true := by decide

theorem test_witness_InterruptFlagHasNoEffect : Instr.plp ≠ .php ∧ Instr.rti ≠ .brk := by decide

/-- AdcAddsWithCarry, SbcSubtractsWithBorrow, OverflowIsSignedOverflow. -/
theorem test_witness_binary_mode :
    w.flag .D = false ∧ sourceByte w (.mem (.indY 0x10)) = 0x27 := by decide

/-- AdcObeysTheBcdLaw, SbcObeysTheBcdLaw, DecimalDigitAlgorithms. -/
theorem test_witness_decimal_mode :
    wd.flag .D = true ∧ BcdWellFormed wd.regA ∧
      BcdWellFormed (sourceByte wd (AluOperand.indY 0x10).source) :=
  ⟨by decide, by unfold BcdWellFormed; decide, by unfold BcdWellFormed; decide⟩

/-- Each of the branch conditions holds in one of these states and fails in the other. -/
theorem test_witness_BranchesFollowTheirCondition :
    let t := { w with regP := 0xE7 }
    [w.flag .C, w.flag .Z, w.flag .N, w.flag .V] = [false, false, false, false] ∧
      [t.flag .C, t.flag .Z, t.flag .N, t.flag .V] = [true, true, true, true] := by decide

theorem test_witness_JmpGoesToItsTarget :
    JmpOperand.abs 0x1234 = .abs 0x1234 ∧ JmpOperand.ind 0x02FF = .ind 0x02FF := ⟨rfl, rfl⟩

theorem test_witness_RtiReturns :
    w.mem.wf = true ∧ w.flag .B = false ∧ w.flag .U = true := by decide

/-- LoadRomWritesImageAndVector and both clauses of LoadRomSetsTheFirstFetch. -/
theorem test_witness_load_rom :
    (State.reset.mem.wf = true ∧ State.reset.resetDone = false ∧
      ∃ s', loadRom "A901" 0x8000 State.reset = .ok s') ∧
    (w.mem.wf = true ∧ w.resetDone = true ∧ ∃ s', loadRom "A901" 0x8000 w = .ok s') :=
  ⟨⟨by decide, rfl, _, rfl⟩, by decide, rfl, _, rfl⟩

theorem test_witness_DisassemblyMapping :
    ∃ d e, (walk w 2 0x8000)[0]? = some d ∧ (walk w 2 0x8000)[1]? = some e ∧ d.1 = 0x8000 ∧
      e.1 = 0x8002 :=
  ⟨_, _, rfl, rfl, by decide, by decide⟩

/-- A string of `n` pairs of the digit 0. -/
def zeros (n : Nat) : String := String.ofList (List.replicate (2 * n) '0')

theorem zeros_digits (n : Nat) :
    (zeros n).toList.filter (fun c => !c.isWhitespace) = List.replicate (2 * n) '0' := by
  rw [zeros, String.toList_ofList, List.filter_eq_self]
  intro c h
  rw [List.eq_of_mem_replicate h]
  rfl

/-- Both clauses at their boundary: 32 762 pairs, and one pair more. -/
theorem test_witness_LoadRomAcceptsDigitPairs : ∀ n ∈ [1, 32762, 32763],
    let digits := (zeros n).toList.filter (fun c => !c.isWhitespace)
    digits ≠ [] ∧ digits.length % 2 = 0 ∧ (∀ c ∈ digits, c ∈ hexDigits) ∧ digits.length / 2 = n := by
  intro n hn
  have pos : 0 < n := by simp at hn; omega
  rw [zeros_digits]
  refine ⟨?_, ?_, ?_, ?_⟩
  · exact fun h => by have := congrArg List.length h; simp at this; omega
  · simp
  · intro c h
    rw [List.eq_of_mem_replicate h]
    decide
  · simp

end Sys2Proof.Tests
end

section
/-! What every instruction may change: one rule per state update for `Confined`, one line per instruction, and
from these the frame of every instruction (10_state.md R35, R10 to R13). -/

namespace Sys2Proof.Safety

open Sys2Proof Sys2Proof.Machine

/-! ### Byte registers by name -/

/-- `setA`, `setX`, `setY` and `setS` by the register's name, the write that belongs to `regOf`. -/
def setReg (s : State) : Reg → Byte → State
  | .A, v => s.setA v
  | .X, v => s.setX v
  | .Y, v => s.setY v
  | .S, v => s.setS v

theorem regOf_setReg (s : State) (r : Reg) (v : Byte) (q : Reg) :
    regOf (setReg s r v) q = if q = r then v else regOf s q := by
  cases r <;> cases q <;> rfl

/-- A register write changes nothing but byte registers. -/
theorem setReg_keeps (s : State) (r : Reg) (v : Byte) :
    (setReg s r v).regP = s.regP ∧ (setReg s r v).mem = s.mem ∧ (setReg s r v).pc = s.pc ∧
      (setReg s r v).resetDone = s.resetDone ∧ (setReg s r v).unknownNotes = s.unknownNotes := by
  cases r <;> exact ⟨rfl, rfl, rfl, rfl, rfl⟩

/-! ### The rules of `Confined` -/

/-- `Frame` with the two facts an instruction keeps besides: PC stays unless it `jumps`, and memory stays
canonical. -/
structure Confined (regs : List Reg) (flags : List Flag) (cells : List Word) (jumps : Bool)
    (s t : State) : Prop extends Frame regs flags cells s t where
  pc : jumps = false → t.pc = s.pc
  memory : s.mem.wf = true → t.mem.wf = true

namespace Confined

theorem refl {regs : List Reg} {flags : List Flag} {cells : List Word} {jumps : Bool} (s : State) :
    Confined regs flags cells jumps s s :=
  ⟨⟨fun _ _ => rfl, fun _ _ => rfl, fun _ _ => rfl, rfl, rfl⟩, fun _ => rfl, id⟩

variable {regs : List Reg} {flags : List Flag} {cells : List Word} {jumps : Bool} {s t : State}

theorem setReg (h : Confined regs flags cells jumps s t) (r : Reg) (v : Byte) (hr : r ∈ regs) :
    Confined regs flags cells jumps s (setReg t r v) := by
  obtain ⟨hP, hmem, hpc, hdone, hnotes⟩ := setReg_keeps t r v
  refine ⟨⟨fun q hq => ?_, fun f hf => ?_, fun a ha => ?_, hdone.trans h.resetDone,
    hnotes.trans h.unknownNotes⟩, fun hj => hpc.trans (h.pc hj), fun hm => hmem ▸ h.memory hm⟩
  · rw [regOf_setReg, if_neg (ne_of_mem_of_not_mem hr hq).symm, h.regs q hq]
  · rw [State.flag, hP]
    exact h.flags f hf
  · rw [State.read, hmem]
    exact h.cells a ha

theorem setP (h : Confined regs flags cells jumps s t) (p : Byte)
    (hp : ∀ f, f ∉ flags → flag p f = t.flag f) : Confined regs flags cells jumps s (t.setP p) where
  regs r hr := by cases r <;> exact h.regs _ hr
  flags f hf := (hp f hf).trans (h.flags f hf)
  cells := h.cells
  resetDone := h.resetDone
  unknownNotes := h.unknownNotes
  pc := h.pc
  memory := h.memory

theorem putFlag (h : Confined regs flags cells jumps s t) (f : Flag) (b : Bool) (hf : f ∈ flags) :
    Confined regs flags cells jumps s (t.putFlag f b) :=
  h.setP _ fun g hg => by
    rw [flag_setFlag, if_neg (ne_of_mem_of_not_mem hf hg).symm]
    rfl

theorem putZN (h : Confined regs flags cells jumps s t) (r : Byte) (hz : .Z ∈ flags) (hn : .N ∈ flags) :
    Confined regs flags cells jumps s (t.putZN r) :=
  (h.putFlag .Z _ hz).putFlag .N _ hn

theorem write (h : Confined regs flags cells jumps s t) (a : Word) (v : Byte) (ha : a ∈ cells) :
    Confined regs flags cells jumps s (t.write a v) where
  regs r hr := by cases r <;> exact h.regs _ hr
  flags := h.flags
  cells b hb := (State.read_write_ne t a b v fun e => hb (e ▸ ha)).trans (h.cells b hb)
  resetDone := h.resetDone
  unknownNotes := h.unknownNotes
  pc := h.pc
  memory hm := State.write_mem_wf t (h.memory hm) a v

theorem push (h : Confined regs flags cells jumps s t) (v : Byte) (hS : .S ∈ regs)
    (ha : stackAddr t.regS ∈ cells) : Confined regs flags cells jumps s (t.push v) :=
  (h.write _ v ha).setReg .S _ hS

theorem setPc (h : Confined regs flags cells true s t) (a : Word) :
    Confined regs flags cells true s (t.setPc a) where
  regs r hr := by cases r <;> exact h.regs _ hr
  flags := h.flags
  cells := h.cells
  resetDone := h.resetDone
  unknownNotes := h.unknownNotes
  pc := nofun
  memory := h.memory

theorem setPending (h : Confined regs flags cells jumps s t) (n : Nat) :
    Confined regs flags cells jumps s (t.setPending n) where
  regs r hr := by cases r <;> exact h.regs _ hr
  flags := h.flags
  cells := h.cells
  resetDone := h.resetDone
  unknownNotes := h.unknownNotes
  pc := h.pc
  memory := h.memory

end Confined

/-! ### The effects that several instructions share -/

theorem confined_loadReg (s : State) (r : Reg) (v w : Byte) :
    Confined [r] [.Z, .N] [] false s ((setReg s r v).putZN w) :=
  ((Confined.refl s).setReg r v (by simp)).putZN w (by simp) (by simp)

theorem confined_write (s : State) (a : Word) (v : Byte) : Confined [] [] [a] false s (s.write a v) :=
  (Confined.refl s).write a v (by simp)

theorem confined_push (s : State) (v : Byte) :
    Confined [.S] [] [stackAddr s.regS] false s (s.push v) :=
  (Confined.refl s).push v (by simp) (by simp)

theorem confined_loadSum (s : State) (r : Sum) :
    Confined [.A] [.C, .Z, .V, .N] [] false s (s.loadSum r) :=
  ((((Confined.refl s).setReg .A r.result (by simp)).putFlag .C r.carry (by simp)).putFlag
    .V r.overflow (by simp)).putZN r.result (by simp) (by simp)

theorem confined_compare (s : State) (r m : Byte) :
    Confined [] [.C, .Z, .N] [] false s (s.setP (compareStatus s.regP r m)) :=
  (((Confined.refl s).putFlag .C _ (by simp)).putFlag .Z _ (by simp)).putFlag .N _ (by simp)

theorem confined_bit (s : State) (a m : Byte) :
    Confined [] [.Z, .V, .N] [] false s (s.setP (bitStatus s.regP a m)) :=
  (((Confined.refl s).putFlag .Z _ (by simp)).putFlag .N _ (by simp)).putFlag .V _ (by simp)

theorem confined_modify (s : State) (ea : Word) (f : Byte → Byte) :
    Confined [] [.Z, .N] [ea] false s (s.modify ea f) :=
  ((Confined.refl s).write ea _ (by simp)).putZN _ (by simp) (by simp)

/-- The four shifts write one of two places, which `registerWriters` and `storedCells` tell apart alike. -/
theorem confined_shift (s : State) (o : ShiftOperand) (r : Shifted) :
    Confined (registerWriters (.asl o)) [.C, .Z, .N] (storedCells s (.asl o)) false s
      (s.shift o.target r) := by
  cases o with
  | acc =>
    exact (((Confined.refl s).setReg .A r.result (List.mem_singleton.2 rfl)).putFlag
      .C r.out (by simp)).putZN r.result (by simp) (by simp)
  | zp _ | zpX _ | abs _ | absX _ =>
    exact (((Confined.refl s).write _ r.result (List.mem_singleton.2 rfl)).putFlag
      .C r.out (by simp)).putZN r.result (by simp) (by simp)

theorem confined_putFlag (s : State) (f : Flag) (b : Bool) :
    Confined [] [f] [] false s (s.putFlag f b) :=
  (Confined.refl s).putFlag f b (by simp)

/-- A status byte popped whole: every flag is listed, so none is left to be as before. -/
theorem confined_pulled (s : State) (sp p : Byte) {jumps : Bool} :
    Confined [.S] [.C, .Z, .I, .D, .B, .U, .V, .N] [] jumps s ((s.setS sp).setP p) :=
  ((Confined.refl s).setReg .S sp (by simp)).setP p fun f hf => by cases f <;> simp at hf

theorem confined_pushWord (s : State) (w : Word) {flags : List Flag} {cells : List Word}
    {jumps : Bool} (h0 : stackAddr s.regS ∈ cells) (h1 : stackAddr (s.regS - 1) ∈ cells) :
    Confined [.S] flags cells jumps s (s.pushWord w) :=
  ((Confined.refl s).push _ (by simp) h0).push _ (by simp) h1

theorem confined_pla (s : State) :
    Confined [.A, .S] [.Z, .N] [] false s ((s.popped.setA s.top).putZN s.top) :=
  (((Confined.refl s).setReg .S (s.regS + 1) (by simp)).setReg .A s.top (by simp)).putZN _
    (by simp) (by simp)

theorem confined_jsr (s : State) (target : Word) :
    Confined [.S] [] [stackAddr s.regS, stackAddr (s.regS - 1)] true s
      ((s.pushWord (s.pc - 1)).setPc target) :=
  (confined_pushWord s _ (by simp) (by simp)).setPc target

theorem confined_rts (s : State) :
    Confined [.S] [] [] true s (s.poppedWord.setPc (s.topWord + 1)) :=
  ((Confined.refl s).setReg .S (s.regS + 1 + 1) (by simp)).setPc _

theorem confined_brk (s : State) :
    Confined [.S] [.I] [stackAddr s.regS, stackAddr (s.regS - 1), stackAddr (s.regS - 2)] true s
      s.enterTrap := by
  have third : s.regS - 1 - 1 = s.regS - 2 := by bv_omega
  exact (((confined_pushWord s (s.pc + 1) (by simp) (by simp)).push (pushedStatus s.regP)
    (by simp) (by rw [State.pushWord_regS, third]; simp)).putFlag .I true (by simp)).setPc _

/-! ### The frame of every instruction -/

/-- Effects within the lists stay within them once the cycle budget is loaded. -/
theorem confined_of_conclude {i : Instr} {s t : State} {extra : Nat} {regs : List Reg} {flags : List Flag}
    {cells : List Word} {jumps : Bool} (h : exec i s = conclude i s extra t)
    (c : Confined regs flags cells jumps s t) :
    ∃ t, exec i s = .next t ∧ Confined regs flags cells jumps s t :=
  ⟨_, h, c.setPending _⟩

/-- A branch, taken or not, may change PC alone. -/
theorem confined_of_branch {i : Instr} {s : State} {cond : Bool} {offset : Byte}
    (h : exec i s = branch i cond offset s) :
    ∃ t, exec i s = .next t ∧ Confined [] [] [] true s t := by
  cases cond with
  | false => exact confined_of_conclude (h.trans (branch_not_taken i offset s)) (.refl s)
  | true => exact confined_of_conclude (h.trans (branch_taken i offset s)) ((Confined.refl s).setPc _)

/-- Every instruction but an UnknownOpcode, which is noted, stays within its lists. -/
theorem exec_confined (i : Instr) (s : State) (known : ∀ b, i ≠ .unknown b) :
    ∃ t, exec i s = .next t ∧
      Confined (registerWriters i) (flagWriters i) (storedCells s i) (transfersControl i) s t := by
  cases i with
  | lda o => exact confined_of_conclude (exec_lda o s) (confined_loadReg s .A _ _)
  | ldx o => exact confined_of_conclude (exec_ldx o s) (confined_loadReg s .X _ _)
  | ldy o => exact confined_of_conclude (exec_ldy o s) (confined_loadReg s .Y _ _)
  | sta o => exact confined_of_conclude (exec_sta o s) (confined_write s _ _)
  | stx o => exact confined_of_conclude (exec_stx o s) (confined_write s _ _)
  | sty o => exact confined_of_conclude (exec_sty o s) (confined_write s _ _)
  | tax => exact confined_of_conclude (exec_tax s) (confined_loadReg s .X _ _)
  | tay => exact confined_of_conclude (exec_tay s) (confined_loadReg s .Y _ _)
  | txa => exact confined_of_conclude (exec_txa s) (confined_loadReg s .A _ _)
  | tya => exact confined_of_conclude (exec_tya s) (confined_loadReg s .A _ _)
  | tsx => exact confined_of_conclude (exec_tsx s) (confined_loadReg s .X _ _)
  | txs => exact confined_of_conclude (exec_txs s) ((Confined.refl s).setReg .S _ (List.mem_singleton.2 rfl))
  | pha => exact confined_of_conclude (exec_pha s) (confined_push s _)
  | pla => exact confined_of_conclude (exec_pla s) (confined_pla s)
  | php => exact confined_of_conclude (exec_php s) (confined_push s _)
  | plp => exact confined_of_conclude (exec_plp s) (confined_pulled s _ _)
  | and o => exact confined_of_conclude (exec_and o s) (confined_loadReg s .A _ _)
  | ora o => exact confined_of_conclude (exec_ora o s) (confined_loadReg s .A _ _)
  | eor o => exact confined_of_conclude (exec_eor o s) (confined_loadReg s .A _ _)
  | adc o => exact confined_of_conclude (exec_adc o s) (confined_loadSum s _)
  | sbc o => exact confined_of_conclude (exec_sbc o s) (confined_loadSum s _)
  | cmp o => exact confined_of_conclude (exec_cmp o s) (confined_compare s _ _)
  | cpx o => exact confined_of_conclude (exec_cpx o s) (confined_compare s _ _)
  | cpy o => exact confined_of_conclude (exec_cpy o s) (confined_compare s _ _)
  | inc o => exact confined_of_conclude (exec_inc o s) (confined_modify s _ _)
  | dec o => exact confined_of_conclude (exec_dec o s) (confined_modify s _ _)
  | inx => exact confined_of_conclude (exec_inx s) (confined_loadReg s .X _ _)
  | dex => exact confined_of_conclude (exec_dex s) (confined_loadReg s .X _ _)
  | iny => exact confined_of_conclude (exec_iny s) (confined_loadReg s .Y _ _)
  | dey => exact confined_of_conclude (exec_dey s) (confined_loadReg s .Y _ _)
  | asl o => exact confined_of_conclude (exec_asl o s) (confined_shift s o _)
  | lsr o => exact confined_of_conclude (exec_lsr o s) (confined_shift s o _)
  | rol o => exact confined_of_conclude (exec_rol o s) (confined_shift s o _)
  | ror o => exact confined_of_conclude (exec_ror o s) (confined_shift s o _)
  | bcc offset => exact confined_of_branch (exec_bcc offset s)
  | bcs offset => exact confined_of_branch (exec_bcs offset s)
  | beq offset => exact confined_of_branch (exec_beq offset s)
  | bne offset => exact confined_of_branch (exec_bne offset s)
  | bmi offset => exact confined_of_branch (exec_bmi offset s)
  | bpl offset => exact confined_of_branch (exec_bpl offset s)
  | bvc offset => exact confined_of_branch (exec_bvc offset s)
  | bvs offset => exact confined_of_branch (exec_bvs offset s)
  | jmp o => exact confined_of_conclude (exec_jmp o s) ((Confined.refl s).setPc _)
  | jsr target => exact confined_of_conclude (exec_jsr target s) (confined_jsr s target)
  | rts => exact confined_of_conclude (exec_rts s) (confined_rts s)
  | rti => exact confined_of_conclude (exec_rti s) ((confined_pulled s _ _).setPc _)
  | brk => exact confined_of_conclude (exec_brk s) (confined_brk s)
  | clc => exact confined_of_conclude (exec_clc s) (confined_putFlag s .C _)
  | sec => exact confined_of_conclude (exec_sec s) (confined_putFlag s .C _)
  | cli => exact confined_of_conclude (exec_cli s) (confined_putFlag s .I _)
  | sei => exact confined_of_conclude (exec_sei s) (confined_putFlag s .I _)
  | cld => exact confined_of_conclude (exec_cld s) (confined_putFlag s .D _)
  | sed => exact confined_of_conclude (exec_sed s) (confined_putFlag s .D _)
  | clv => exact confined_of_conclude (exec_clv s) (confined_putFlag s .V _)
  | bit o => exact confined_of_conclude (exec_bit o s) (confined_bit s _ _)
  | nop => exact confined_of_conclude (exec_nop s) (.refl s)
  | unknown b => exact absurd rfl (known b)

/-- Every instruction stays within its lists, the note of an UnknownOpcode left out. -/
theorem exec_confined_but_note (i : Instr) (s : State) :
    ∃ t, exec i s = .next t ∧
      Confined (registerWriters i) (flagWriters i) (storedCells s i) (transfersControl i) s
        { t with unknownNotes := s.unknownNotes } := by
  by_cases known : ∀ b, i ≠ .unknown b
  · obtain ⟨t, ht, h⟩ := exec_confined i s known
    refine ⟨t, ht, ?_⟩
    rw [← h.unknownNotes]
    exact h
  · obtain ⟨b, rfl⟩ : ∃ b, i = .unknown b := by simpa using known
    exact ⟨_, exec_unknown b s, (Confined.refl s).setPending _⟩

/-- Settles O26: the frame of every instruction, from the rules of `Confined`. -/
theorem everyInstructionStaysInItsFrame : Obligations.EveryInstructionStaysInItsFrame := by
  intro i s
  obtain ⟨t, ht, h⟩ := exec_confined_but_note i s
  exact ⟨t, ht, h.toFrame, h.pc⟩

end Sys2Proof.Safety
end

section
/-! The invariant of 10_state.md R31: it holds at power-on, and every tick keeps it. -/

namespace Sys2Proof.Safety

open Sys2Proof Sys2Proof.Machine

/-! ### The cycle budget (R27, R213) -/

theorem encoding_statement (i : Instr) : Laws.Encoding.Statement i := by
  open Laws.Encoding in
  cases i
  exacts [lda _, ldx _, ldy _, sta _, stx _, sty _, tax, tay, txa, tya, tsx, txs, pha, pla, php, plp,
    and _, ora _, eor _, adc _, sbc _, cmp _, cpx _, cpy _, inc _, dec _, inx, dex, iny, dey, asl _,
    lsr _, rol _, ror _, bcc _, bcs _, beq _, bne _, bmi _, bpl _, bvc _, bvs _, jmp _, jsr _, rts,
    rti, brk, clc, sec, cli, sei, cld, sed, clv, bit _, nop, unknown _]

theorem baseCycles_le_seven (i : Instr) : baseCycles i ≤ 7 := by
  obtain ⟨-, -, -, -, h⟩ := encoding_statement i
  exact h

/-- The rows with R74's `+` are short enough for one cycle more. -/
theorem baseCycles_le_five_of_pays (i : Instr) (h : paysPageCross i = true) : baseCycles i ≤ 5 := by
  cases i with
  | lda o | and o | ora o | eor o | adc o | sbc o | cmp o | ldx o | ldy o =>
    cases o <;> simp [paysPageCross, baseCycles, AluOperand.pick, LdxOperand.pick, LdyOperand.pick] at h ⊢
  | _ => simp [paysPageCross] at h

theorem baseCycles_add_pagePenalty_le (i : Instr) (s : State) : baseCycles i + pagePenalty i s ≤ 7 := by
  cases h : paysPageCross i with
  | false =>
    rw [pagePenalty_of_not_pays i s h]
    exact baseCycles_le_seven i
  | true =>
    have := baseCycles_le_five_of_pays i h
    have := pagePenalty_le_one i s
    omega

/-- An instruction is a branch, or it concludes with no cycles from its handler. -/
theorem exec_shape (i : Instr) (s : State) :
    (∃ t, exec i s = conclude i s 0 t) ∨
    ∃ cond offset, i.operand = .relative offset ∧ baseCycles i = 2 ∧ paysPageCross i = false ∧
      exec i s = branch i cond offset s := by
  cases i with
  | bcc offset | bcs offset | beq offset | bne offset | bmi offset | bpl offset | bvc offset
  | bvs offset => exact .inr ⟨_, offset, rfl, rfl, rfl, rfl⟩
  | _ => exact .inl ⟨_, rfl⟩

theorem exec_pendingCycles_le {i : Instr} {s t : State} (h : exec i s = .next t) :
    t.pendingCycles ≤ 6 := by
  rcases exec_shape i s with ⟨u, hu⟩ | ⟨cond, offset, -, hbase, hpays, hb⟩
  · have := baseCycles_add_pagePenalty_le i s
    rw [conclude_inv (hu.symm.trans h), State.setPending_pendingCycles]
    omega
  · have := crossed_le_one s.pc (relativeTarget s offset)
    have := pagePenalty_of_not_pays i s hpays
    rcases branch_cases i cond offset s t (hb.symm.trans h) with ⟨-, rfl⟩ | ⟨-, rfl⟩ <;>
      rw [State.setPending_pendingCycles] <;> omega

/-! ### The bits B and U of live P (R20, R21) -/

/-- Only the instructions that pull P may write B or U. -/
theorem pulls_of_mem_flagWriters (i : Instr) (h : .B ∈ flagWriters i ∨ .U ∈ flagWriters i) :
    i = .plp ∨ i = .rti := by
  cases i <;> simp [flagWriters] at h ⊢

theorem regP_of_pulls {i : Instr} (pulls : i = .plp ∨ i = .rti) {s t : State}
    (h : exec i s = .next t) : t.regP = pulledStatus s.top := by
  rcases pulls with rfl | rfl
  · rw [conclude_inv ((exec_plp s).symm.trans h)]
    rfl
  · rw [conclude_inv ((exec_rti s).symm.trans h)]
    rfl

/-- P as an instruction leaves it has B clear and U set if it had before: it is a pulled status, or neither
bit is among the flags the instruction writes. -/
theorem exec_keeps_B_U {i : Instr} {s t : State} (h : exec i s = .next t) (hB : s.flag .B = false)
    (hU : s.flag .U = true) : t.flag .B = false ∧ t.flag .U = true := by
  by_cases pulls : i = .plp ∨ i = .rti
  · rw [State.flag, State.flag, regP_of_pulls pulls h, flag_pulledStatus, flag_pulledStatus]
    exact ⟨rfl, rfl⟩
  · obtain ⟨u, hu, c⟩ := exec_confined_but_note i s
    obtain rfl : u = t := by simpa [hu] using h
    have unlisted := mt (pulls_of_mem_flagWriters i) pulls
    exact ⟨(c.flags .B fun hb => unlisted (.inl hb)).trans hB,
      (c.flags .U fun hu => unlisted (.inr hu)).trans hU⟩

/-! ### The invariant through the parts of a tick -/

theorem Inv.of_exec {i : Instr} {s t : State} (hs : Inv s) (done : s.resetDone = true)
    (h : exec i s = .next t) : Inv t := by
  obtain ⟨u, hu, c⟩ := exec_confined_but_note i s
  obtain rfl : u = t := by simpa [hu] using h
  obtain ⟨hB, hU⟩ := exec_keeps_B_U h hs.breakClear hs.unusedSet
  have done' : u.resetDone = true := c.resetDone.trans done
  exact ⟨hB, hU, exec_pendingCycles_le h, fun hn => by simp [done'] at hn, c.memory hs.memory⟩

theorem Inv.setPc {s : State} (h : Inv s) (a : Word) : Inv (s.setPc a) :=
  ⟨h.breakClear, h.unusedSet, h.budget, h.unreset, h.memory⟩

theorem Inv.idle {s : State} (h : Inv s) : Inv s.idle where
  breakClear := h.breakClear
  unusedSet := h.unusedSet
  budget := (Nat.sub_le _ _).trans h.budget
  unreset hn := by
    have := h.unreset hn
    simp [State.idle, this]
  memory := h.memory

theorem Inv.resetSequence {s : State} (h : Inv s) : Inv s.resetSequence :=
  ⟨(by decide : flag Config.pReset .B = false), (by decide : flag Config.pReset .U = true), h.budget,
    nofun, h.memory⟩

theorem Inv.afterReset {s : State} (h : Inv s) : Inv s.afterReset := by
  cases hd : s.resetDone with
  | true => rwa [State.afterReset_of_done s hd]
  | false =>
    rw [State.afterReset_of_not_done s hd]
    exact h.resetSequence

theorem Inv.of_fetchStep {s t : State} (hs : Inv s) (done : s.resetDone = true)
    (h : fetchStep s = .next t) : Inv t :=
  have past : Inv (s.pastInstr (fetchInstr s)) := hs.setPc _
  past.of_exec done h

/-- Settles O24: an idle step counts down, and a fetch step runs an instruction, each of which keeps every
part of the invariant. -/
theorem tickKeepsInvariant : Obligations.TickKeepsInvariant := by
  intro s t hs h
  rcases Nat.eq_zero_or_pos s.pendingCycles with ready | pending
  · rw [step_of_ready s ready] at h
    exact hs.afterReset.of_fetchStep s.afterReset_resetDone h
  · rw [step_of_pending s pending] at h
    injection h with h
    exact h ▸ hs.afterReset.idle

/-- Settles O23, by evaluating the power-on state. -/
theorem resetMeetsInvariant : Obligations.ResetMeetsInvariant :=
  ⟨by decide, by decide, by decide, by decide, by decide⟩

end Sys2Proof.Safety
end

section
/-! The I flag masks nothing (10_state.md R18, 60_exceptions.md R232): an instruction run with another I does
the same but for I. The second state is `s.setP q`, with `q` a status byte that agrees with P off I. -/

namespace Sys2Proof.Safety

open Sys2Proof Sys2Proof.Machine

/-! ### Status bytes that differ only in I -/

/-- `q` has the flags of `p`, I apart. -/
def AgreeOffI (p q : Byte) : Prop := ∀ f, f ≠ .I → flag q f = flag p f

namespace AgreeOffI

theorem refl (p : Byte) : AgreeOffI p p := fun _ _ => rfl

theorem putI (p : Byte) (b : Bool) : AgreeOffI p (Machine.setFlag p .I b) := fun f hf => by
  rw [flag_setFlag, if_neg hf]

variable {p q : Byte}

theorem setFlag (h : AgreeOffI p q) (f : Flag) (b : Bool) :
    AgreeOffI (Machine.setFlag p f b) (Machine.setFlag q f b) := fun g hg => by
  rw [flag_setFlag, flag_setFlag, h g hg]

theorem setZN (h : AgreeOffI p q) (r : Byte) : AgreeOffI (Machine.setZN p r) (Machine.setZN q r) :=
  (h.setFlag .Z _).setFlag .N _

theorem sumStatus (h : AgreeOffI p q) (r : Sum) :
    AgreeOffI (Machine.sumStatus p r) (Machine.sumStatus q r) :=
  ((h.setFlag .C _).setFlag .V _).setZN _

theorem compareStatus (h : AgreeOffI p q) (r m : Byte) :
    AgreeOffI (Machine.compareStatus p r m) (Machine.compareStatus q r m) :=
  ((h.setFlag .C _).setFlag .Z _).setFlag .N _

theorem bitStatus (h : AgreeOffI p q) (a m : Byte) :
    AgreeOffI (Machine.bitStatus p a m) (Machine.bitStatus q a m) :=
  ((h.setFlag .Z _).setFlag .N _).setFlag .V _

theorem shiftStatus (h : AgreeOffI p q) (r : Shifted) :
    AgreeOffI (Machine.shiftStatus p r) (Machine.shiftStatus q r) :=
  (h.setFlag .C _).setZN _

theorem adcSum_eq (h : AgreeOffI p q) (a m : Byte) : adcSum q a m = adcSum p a m := by
  rw [adcSum, adcSum, h .D (by decide), h .C (by decide)]

theorem sbcSum_eq (h : AgreeOffI p q) (a m : Byte) : sbcSum q a m = sbcSum p a m := by
  rw [sbcSum, sbcSum, h .D (by decide), h .C (by decide)]

end AgreeOffI

/-! ### What does not read P -/

theorem pagePenalty_setP (i : Instr) (s : State) (q : Byte) :
    pagePenalty i (s.setP q) = pagePenalty i s := rfl

theorem shift_setP (s : State) (q : Byte) (t : Target) (r : Shifted) :
    (s.setP q).shift t r = (s.shift t r).setP (shiftStatus q r) := by
  cases t <;> rfl

/-! ### Runs that differ only in I -/

/-- `i` runs from `s` and from `s` with the status byte `q`, to states that differ only in I. -/
def IgnoresI (i : Instr) (s : State) (q : Byte) : Prop :=
  ∃ t q', exec i s = .next t ∧ exec i (s.setP q) = .next (t.setP q') ∧ AgreeOffI t.regP q'

namespace IgnoresI

variable {i : Instr} {s : State} {q : Byte}

theorem of_conclude {t : State} {q' : Byte} {extra : Nat} (hs : exec i s = conclude i s extra t)
    (agree : AgreeOffI t.regP q')
    (hq : exec i (s.setP q) = conclude i (s.setP q) extra (t.setP q')) : IgnoresI i s q := by
  rw [conclude_eq, pagePenalty_setP] at hq
  exact ⟨_, q', hs, hq, agree⟩

/-- A branch whose condition is `cond` of a flag other than I. -/
theorem of_branch (h : AgreeOffI s.regP q) {offset : Byte} (f : Flag) (hf : f ≠ .I)
    (cond : Bool → Bool) (run : ∀ u, exec i u = branch i (cond (u.flag f)) offset u) :
    IgnoresI i s q := by
  have same : (s.setP q).flag f = s.flag f := h f hf
  have hs := run s
  have hq := run (s.setP q)
  rw [same] at hq
  cases hc : cond (s.flag f) with
  | false =>
    rw [hc, branch_not_taken] at hs hq
    exact of_conclude hs h hq
  | true =>
    rw [hc, branch_taken] at hs hq
    exact of_conclude hs h hq

/-- An ADC or SBC whose sum is the same with the other status byte. -/
theorem of_loadSum (h : AgreeOffI s.regP q) {sum : State → Sum}
    (run : ∀ u, exec i u = conclude i u 0 (u.loadSum (sum u))) (same : sum (s.setP q) = sum s) :
    IgnoresI i s q :=
  of_conclude (run s) (h.sumStatus (sum s)) (by rw [run, same]; rfl)

/-- A shift whose result is the same with the other status byte. -/
theorem of_shift (h : AgreeOffI s.regP q) {target : Target} {shifted : State → Shifted}
    (run : ∀ u, exec i u = conclude i u 0 (u.shift target (shifted u)))
    (same : shifted (s.setP q) = shifted s) : IgnoresI i s q :=
  of_conclude (run s) (h.shiftStatus (shifted s)) (by rw [run, same, shift_setP])

end IgnoresI

/-- Each instruction computes its result from P's other flags alone, and the status it leaves agrees off I. Where
the last step is `rfl`, the result reads no flag, so the two runs have the same effects by unfolding. -/
theorem exec_ignoresI (i : Instr) (s : State) (q : Byte) (h : AgreeOffI s.regP q) (hphp : i ≠ .php)
    (hbrk : i ≠ .brk) : IgnoresI i s q := by
  cases i with
  | lda o => exact .of_conclude (exec_lda o s) (h.setZN _) rfl
  | ldx o => exact .of_conclude (exec_ldx o s) (h.setZN _) rfl
  | ldy o => exact .of_conclude (exec_ldy o s) (h.setZN _) rfl
  | sta o => exact .of_conclude (exec_sta o s) h rfl
  | stx o => exact .of_conclude (exec_stx o s) h rfl
  | sty o => exact .of_conclude (exec_sty o s) h rfl
  | tax => exact .of_conclude (exec_tax s) (h.setZN _) rfl
  | tay => exact .of_conclude (exec_tay s) (h.setZN _) rfl
  | txa => exact .of_conclude (exec_txa s) (h.setZN _) rfl
  | tya => exact .of_conclude (exec_tya s) (h.setZN _) rfl
  | tsx => exact .of_conclude (exec_tsx s) (h.setZN _) rfl
  | txs => exact .of_conclude (exec_txs s) h rfl
  | pha => exact .of_conclude (exec_pha s) h rfl
  | pla => exact .of_conclude (exec_pla s) (h.setZN _) rfl
  | php => exact absurd rfl hphp
  | plp => exact .of_conclude (exec_plp s) (.refl _) rfl
  | and o => exact .of_conclude (exec_and o s) (h.setZN _) rfl
  | ora o => exact .of_conclude (exec_ora o s) (h.setZN _) rfl
  | eor o => exact .of_conclude (exec_eor o s) (h.setZN _) rfl
  | adc o => exact .of_loadSum h (exec_adc o) (h.adcSum_eq _ _)
  | sbc o => exact .of_loadSum h (exec_sbc o) (h.sbcSum_eq _ _)
  | cmp o => exact .of_conclude (exec_cmp o s) (h.compareStatus _ _) rfl
  | cpx o => exact .of_conclude (exec_cpx o s) (h.compareStatus _ _) rfl
  | cpy o => exact .of_conclude (exec_cpy o s) (h.compareStatus _ _) rfl
  | inc o => exact .of_conclude (exec_inc o s) (h.setZN _) rfl
  | dec o => exact .of_conclude (exec_dec o s) (h.setZN _) rfl
  | inx => exact .of_conclude (exec_inx s) (h.setZN _) rfl
  | dex => exact .of_conclude (exec_dex s) (h.setZN _) rfl
  | iny => exact .of_conclude (exec_iny s) (h.setZN _) rfl
  | dey => exact .of_conclude (exec_dey s) (h.setZN _) rfl
  | asl o => exact .of_shift h (exec_asl o) rfl
  | lsr o => exact .of_shift h (exec_lsr o) rfl
  | rol o => exact .of_shift h (exec_rol o) (congrArg (rolByte · _) (h .C (by decide)))
  | ror o => exact .of_shift h (exec_ror o) (congrArg (rorByte · _) (h .C (by decide)))
  | bcc offset => exact .of_branch h .C (by decide) (!·) (exec_bcc offset)
  | bcs offset => exact .of_branch h .C (by decide) id (exec_bcs offset)
  | beq offset => exact .of_branch h .Z (by decide) id (exec_beq offset)
  | bne offset => exact .of_branch h .Z (by decide) (!·) (exec_bne offset)
  | bmi offset => exact .of_branch h .N (by decide) id (exec_bmi offset)
  | bpl offset => exact .of_branch h .N (by decide) (!·) (exec_bpl offset)
  | bvc offset => exact .of_branch h .V (by decide) (!·) (exec_bvc offset)
  | bvs offset => exact .of_branch h .V (by decide) id (exec_bvs offset)
  | jmp o => exact .of_conclude (exec_jmp o s) h rfl
  | jsr target => exact .of_conclude (exec_jsr target s) h rfl
  | rts => exact .of_conclude (exec_rts s) h rfl
  | rti => exact .of_conclude (exec_rti s) (.refl _) rfl
  | brk => exact absurd rfl hbrk
  | clc => exact .of_conclude (exec_clc s) (h.setFlag _ _) rfl
  | sec => exact .of_conclude (exec_sec s) (h.setFlag _ _) rfl
  | cli => exact .of_conclude (exec_cli s) (h.setFlag _ _) rfl
  | sei => exact .of_conclude (exec_sei s) (h.setFlag _ _) rfl
  | cld => exact .of_conclude (exec_cld s) (h.setFlag _ _) rfl
  | sed => exact .of_conclude (exec_sed s) (h.setFlag _ _) rfl
  | clv => exact .of_conclude (exec_clv s) (h.setFlag _ _) rfl
  | bit o => exact .of_conclude (exec_bit o s) (h.bitStatus _ _) rfl
  | nop => exact .of_conclude (exec_nop s) h rfl
  | unknown b => exact .of_conclude (exec_unknown b s) h rfl

/-- Settles O27: the run with the other I is `exec_ignoresI` at P with I replaced. -/
theorem interruptFlagHasNoEffect : Obligations.InterruptFlagHasNoEffect := by
  intro i s b hphp hbrk
  obtain ⟨t, q', ht, hu, agree⟩ := exec_ignoresI i s _ (.putI s.regP b) hphp hbrk
  exact ⟨t, t.setP q', ht, hu, rfl, agree⟩

end Sys2Proof.Safety
end

section
/-! The memory and the stack (20_memory.md): canonical memories are determined by their reads, and what the
byte and word accesses, `Push`, `Pop` and their word forms read, write and leave unchanged. -/

namespace Sys2Proof.Safety

open Sys2Proof Sys2Proof.Machine

/-! ### Memories that read alike -/

/-- A memory that reads like one with first cell `k` has a listed cell at or below `k`: the byte at `k` is not
what an unlisted address reads as. -/
theorem not_all_above_of_reads_eq {k : Nat} {v : Byte} {rest n : Memory}
    (hm : Memory.wf ((k, v) :: rest) = true)
    (h : ∀ a < 65536, cellRead ((k, v) :: rest) a = cellRead n a) : ¬ ∀ c ∈ n, k < c.1 := by
  intro above
  obtain ⟨hk, hv, -, -⟩ := (Memory.wf_cons k v rest).1 hm
  have := h k hk
  rw [cellRead_cons, if_pos rfl, cellRead_below n k above] at this
  exact hv this

/-- A key below the first cell of a canonical memory is below every cell. -/
theorem all_above_of_lt_head {k j : Nat} {w : Byte} {rest : Memory}
    (hn : Memory.wf ((j, w) :: rest) = true) (hkj : k < j) : ∀ c ∈ (j, w) :: rest, k < c.1 := by
  obtain ⟨-, -, above, -⟩ := (Memory.wf_cons j w rest).1 hn
  exact List.forall_mem_cons.2 ⟨hkj, fun c hc => hkj.trans (above c hc)⟩

/-- By induction on the first memory: neither first key is below the other, so the first cells are equal, and
behind them the memories read alike. -/
theorem memory_eq_of_reads_eq {m n : Memory} (hm : m.wf = true) (hn : n.wf = true)
    (h : ∀ a < 65536, cellRead m a = cellRead n a) : m = n := by
  induction m generalizing n with
  | nil =>
    cases n with
    | nil => rfl
    | cons d ns =>
      have h' : ∀ a < 65536, cellRead (d :: ns) a = cellRead [] a := fun a ha => (h a ha).symm
      exact (not_all_above_of_reads_eq hn h' (List.forall_mem_nil _)).elim
  | cons c ms ih =>
    cases n with
    | nil => exact (not_all_above_of_reads_eq hm h (List.forall_mem_nil _)).elim
    | cons d ns =>
      obtain ⟨k, v⟩ := c
      obtain ⟨j, w⟩ := d
      have hkj : ¬ k < j := mt (all_above_of_lt_head hn) (not_all_above_of_reads_eq hm h)
      have hjk : ¬ j < k := mt (all_above_of_lt_head hm)
        (not_all_above_of_reads_eq hn fun a ha => (h a ha).symm)
      obtain rfl : k = j := by omega
      obtain ⟨hk, -, ms_above, ms_wf⟩ := (Memory.wf_cons k v ms).1 hm
      obtain ⟨-, -, ns_above, ns_wf⟩ := (Memory.wf_cons k w ns).1 hn
      obtain rfl : v = w := by simpa [cellRead_cons] using h k hk
      have rest_alike : ∀ a < 65536, cellRead ms a = cellRead ns a := fun a ha => by
        by_cases hak : a = k
        · rw [hak, cellRead_below ms k ms_above, cellRead_below ns k ns_above]
        · simpa [cellRead_cons, hak] using h a ha
      rw [ih ms_wf ns_wf rest_alike]

/-- Settles O11: `memory_eq_of_reads_eq`, every address being a word. -/
theorem equalReadsEqualMemory : Obligations.EqualReadsEqualMemory := fun _ _ hm hn h =>
  memory_eq_of_reads_eq hm hn fun a ha => by
    simpa [Nat.mod_eq_of_lt ha] using h (BitVec.ofNat 16 a)

/-! ### Byte access -/

/-- Settles O10, from the read-after-write law and the frame of a write. -/
theorem readAfterWrite : Obligations.ReadAfterWrite := fun s a v hm =>
  ⟨State.read_write_same s hm a v, (confined_write s a v).toFrame, rfl, rfl⟩

/-! ### Word access -/

theorem add_one_eq_ofNat (a : Word) : a + 1 = BitVec.ofNat 16 ((a.toNat + 1) % 65536) := by
  bv_omega

theorem zext16_eq_ofNat (b : Byte) : zext16 b = BitVec.ofNat 16 b.toNat :=
  BitVec.eq_of_toNat_eq (by have := b.isLt; rw [zext16_toNat, BitVec.toNat_ofNat]; omega)

/-- An address is its page and its low byte. -/
theorem page_or_low (a : Word) : page a ||| (a &&& 0x00FF) = a := by
  rw [page, ← BitVec.and_or_distrib_left]
  exact BitVec.and_allOnes

/-- The successor of an address whose low byte is not 0xFF stays in its page. -/
theorem page_or_low_add_one {a : Word} (h : a.toNat % 256 ≠ 255) :
    page a ||| ((a + 1) &&& 0x00FF) = a + 1 := by
  have same_page : page a = page (a + 1) := (page_eq_iff a (a + 1)).2 (by bv_omega)
  rw [same_page, page_or_low]

theorem readWord_toNat (s : State) (a : Word) :
    (s.readWord a).toNat =
      (s.read (BitVec.ofNat 16 ((a.toNat + 1) % 65536))).toNat * 256 + (s.read a).toNat := by
  rw [State.readWord, wordOf_toNat, add_one_eq_ofNat]

theorem readWordZP_toNat (s : State) (zp : Byte) :
    (s.readWordZP zp).toNat =
      (s.read (BitVec.ofNat 16 ((zp.toNat + 1) % 256))).toNat * 256 +
        (s.read (BitVec.ofNat 16 zp.toNat)).toNat := by
  rw [State.readWordZP, wordOf_toNat, zext16_eq_ofNat, zext16_eq_ofNat, BitVec.toNat_add]
  rfl

theorem readWord_writeWord (s : State) (hm : s.mem.wf = true) (a v : Word) :
    (s.writeWord a v).readWord a = v := by
  have apart : a ≠ a + 1 := by bv_omega
  rw [State.readWord, State.writeWord, State.read_write_same _ (State.write_mem_wf s hm a _),
    State.read_write_ne _ _ _ _ apart, State.read_write_same s hm, wordOf_hi8_lo8]

theorem confined_writeWord (s : State) (a v : Word) :
    Confined [] [] [a, a + 1] false s (s.writeWord a v) :=
  ((Confined.refl s).write a _ (by simp)).write (a + 1) _ (by simp)

/-- The JMP read wraps in the pointer's page only at its last cell. -/
theorem readWordJmpInd_eq_readWord (s : State) {a : Word} (h : a.toNat % 256 ≠ 255) :
    s.readWordJmpInd a = s.readWord a := by
  rw [State.readWordJmpInd, page_or_low_add_one h, State.readWord]

/-- Settles O12, one law for each word access. -/
theorem wordAccesses : Obligations.WordAccesses := fun s a v zp hm =>
  ⟨readWord_toNat s a, readWord_writeWord s hm a v, (confined_writeWord s a v).toFrame,
    readWordZP_toNat s zp, wordOf_toNat _ _, readWordJmpInd_eq_readWord s⟩

/-! ### The stack -/

theorem push_regS_toNat (s : State) (v : Byte) : (s.push v).regS.toNat = (s.regS.toNat + 255) % 256 := by
  rw [State.push_regS]
  bv_omega

theorem pushWord_regS_toNat (s : State) (w : Word) :
    (s.pushWord w).regS.toNat = (s.regS.toNat + 254) % 256 := by
  rw [State.pushWord_regS]
  bv_omega

/-- Settles O13: the reads after a push, and the frames of one push and of two. -/
theorem pushGoesDownPageOne : Obligations.PushGoesDownPageOne := fun s v w hm =>
  have wordFrame : Confined [.S] [] [stackAddr s.regS, stackAddr (s.regS - 1)] false s (s.pushWord w) :=
    confined_pushWord s w (by simp) (by simp)
  ⟨stackAddr_toNat,
    ⟨State.read_push_same s hm v, push_regS_toNat s v, (confined_push s v).toFrame,
      State.push_pc s v, State.push_pendingCycles s v⟩,
    ⟨State.read_pushWord_high s hm w, State.read_pushWord_low s hm w, pushWord_regS_toNat s w,
      wordFrame.toFrame, State.pushWord_pc s w, State.pushWord_pendingCycles s w⟩⟩

theorem popped_regS_toNat (s : State) : s.popped.regS.toNat = (s.regS.toNat + 1) % 256 := by
  rw [State.popped_regS]
  bv_omega

theorem poppedWord_regS_toNat (s : State) : s.poppedWord.regS.toNat = (s.regS.toNat + 2) % 256 := by
  rw [State.poppedWord_regS]
  bv_omega

theorem topWord_toNat (s : State) :
    s.topWord.toNat =
      (s.read (stackAddr (s.regS + 2))).toNat * 256 + (s.read (stackAddr (s.regS + 1))).toNat := by
  have second : s.regS + 1 + 1 = s.regS + 2 := by bv_omega
  rw [State.topWord_eq, wordOf_toNat, second]

theorem confined_popped (s : State) : Confined [.S] [] [] false s s.popped :=
  (Confined.refl s).setReg .S (s.regS + 1) (by simp)

theorem confined_poppedWord (s : State) : Confined [.S] [] [] false s s.poppedWord :=
  (confined_popped s).setReg .S (s.popped.regS + 1) (by simp)

theorem regS_popped_push (s : State) (v : Byte) : (s.push v).popped.regS = s.regS := by
  rw [State.popped_regS, State.push_regS, BitVec.sub_add_cancel]

theorem regS_poppedWord_pushWord (s : State) (w : Word) : (s.pushWord w).poppedWord.regS = s.regS := by
  rw [State.poppedWord_regS, State.pushWord_regS, BitVec.sub_add_cancel, BitVec.sub_add_cancel]

/-- Settles O14: pops change S alone, and read and count back what the pushes of O13 stored. -/
theorem popComesBackUp : Obligations.PopComesBackUp := fun s v w =>
  ⟨⟨popped_regS_toNat s, rfl, (confined_popped s).toFrame, State.popped_pc s,
      State.popped_pendingCycles s⟩,
    ⟨poppedWord_regS_toNat s, (confined_poppedWord s).toFrame, State.poppedWord_pc s,
      State.poppedWord_pendingCycles s, topWord_toNat s⟩,
    fun hm => ⟨State.top_push s hm v, regS_popped_push s v, State.topWord_pushWord s hm w,
      regS_poppedWord_pushWord s w⟩⟩

end Sys2Proof.Safety
end

section
/-! The encoding (30_encoding.md): any three bytes spell exactly one instruction, the decoded one. Both round trips
and the set of the UnknownOpcodes follow from that. -/

namespace Sys2Proof.Safety

open Sys2Proof Sys2Proof.Machine

/-! ### Operands and their bytes (R72, R76) -/

/-- The operand in the same mode that `b1` and `b2`, the bytes after the opcode, give. -/
def withBytes (b1 b2 : Byte) : Operand → Operand
  | .implied => .implied
  | .accumulator => .accumulator
  | .immediate _ => .immediate b1
  | .relative _ => .relative b1
  | .indirect _ => .indirect (wordOf b2 b1)
  | .memory (.zp _) => .memory (.zp b1)
  | .memory (.zpX _) => .memory (.zpX b1)
  | .memory (.zpY _) => .memory (.zpY b1)
  | .memory (.abs _) => .memory (.abs (wordOf b2 b1))
  | .memory (.absX _) => .memory (.absX (wordOf b2 b1))
  | .memory (.absY _) => .memory (.absY (wordOf b2 b1))
  | .memory (.indX _) => .memory (.indX b1)
  | .memory (.indY _) => .memory (.indY b1)

theorem eq_wordOf_iff (w : Word) (h l : Byte) : w = wordOf h l ↔ lo8 w = l ∧ hi8 w = h := by
  constructor
  · rintro rfl
    exact ⟨lo8_wordOf h l, hi8_wordOf h l⟩
  · rintro ⟨rfl, rfl⟩
    exact (wordOf_hi8_lo8 w).symm

/-- An operand's bytes are the first of `b1` and `b2` exactly when these two give it. -/
theorem bytes_eq_take_iff (b1 b2 : Byte) (o : Operand) :
    o.bytes = [b1, b2].take o.length ↔ o = withBytes b1 b2 o := by
  cases o with
  | memory m => cases m <;> simp [Operand.bytes, Operand.length, withBytes, eq_wordOf_iff]
  | _ => simp [Operand.bytes, Operand.length, withBytes, eq_wordOf_iff]

theorem operand_bytes_length (i : Instr) : i.operand.bytes.length = i.operand.length := by
  obtain ⟨h, -⟩ := encoding_statement i
  rw [encode, List.length_cons, Instr.length, Nat.add_comm 1] at h
  exact Nat.succ.inj h

theorem operand_length_le_two (i : Instr) : i.operand.length ≤ 2 := by
  obtain ⟨-, h, -⟩ := encoding_statement i
  rw [Instr.length] at h
  omega

/-! ### The instruction that three bytes spell (R71, R73) -/

/-- `op`, `b1` and `b2` spell `i`: it is well formed and its bytes are as many of the three as it has. -/
structure Spells (op b1 b2 : Byte) (i : Instr) : Prop where
  wf : i.wf = true
  opcode : i.opcode = op
  operand : i.operand.bytes = [b1, b2].take i.operand.length

theorem decodeBytes_of_mem_unknownBytes {op : Byte} (b1 b2 : Byte) :
    op ∈ unknownBytes → decodeBytes op b1 b2 = .unknown op :=
  have rows : unknownBytes.map (decodeBytes · b1 b2) = unknownBytes.map .unknown := rfl
  List.map_inj_left.1 rows op

/-- No two instructions share an opcode byte: an instruction is the row of the table at its own opcode. -/
theorem decodeBytes_opcode (i : Instr) (b1 b2 : Byte) (wf : i.wf = true)
    (operand : i.operand = withBytes b1 b2 i.operand) : decodeBytes i.opcode b1 b2 = i := by
  cases i with
  | lda o | and o | ora o | eor o | adc o | sbc o | cmp o => cases o <;> cases operand <;> rfl
  | ldx o => cases o <;> cases operand <;> rfl
  | ldy o => cases o <;> cases operand <;> rfl
  | sta o => cases o <;> cases operand <;> rfl
  | stx o => cases o <;> cases operand <;> rfl
  | sty o => cases o <;> cases operand <;> rfl
  | cpx o | cpy o => cases o <;> cases operand <;> rfl
  | bit o => cases o <;> cases operand <;> rfl
  | inc o | dec o => cases o <;> cases operand <;> rfl
  | asl o | lsr o | rol o | ror o => cases o <;> cases operand <;> rfl
  | jmp o => cases o <;> cases operand <;> rfl
  | bcc | bcs | beq | bne | bmi | bpl | bvc | bvs | jsr => cases operand; rfl
  | unknown b => exact decodeBytes_of_mem_unknownBytes b1 b2 (List.contains_iff_mem.1 wf)
  | _ => rfl

/-- The table binds every byte (R73): each of its 256 rows has its own opcode and takes the bytes after it. -/
theorem spells_decodeBytes (op b1 b2 : Byte) : Spells op b1 b2 (decodeBytes op b1 b2) := by
  have row (n : Nat) (hn : n < 256) :
      (decodeBytes (.ofNat 8 n) b1 b2).wf = true ∧
        (decodeBytes (.ofNat 8 n) b1 b2).opcode = .ofNat 8 n ∧
        (decodeBytes (.ofNat 8 n) b1 b2).operand =
          withBytes b1 b2 (decodeBytes (.ofNat 8 n) b1 b2).operand := by
    interval_cases n <;> exact ⟨rfl, rfl, rfl⟩
  obtain ⟨wf, opcode, operand⟩ := row op.toNat op.isLt
  rw [BitVec.ofNat_toNat, BitVec.setWidth_eq] at wf opcode operand
  exact ⟨wf, opcode, (bytes_eq_take_iff b1 b2 _).2 operand⟩

/-- Three bytes spell one instruction, and the decoder finds it. -/
theorem decodeBytes_eq_iff (op b1 b2 : Byte) (i : Instr) :
    decodeBytes op b1 b2 = i ↔ Spells op b1 b2 i := by
  constructor
  · rintro rfl
    exact spells_decodeBytes op b1 b2
  · rintro ⟨wf, rfl, operand⟩
    exact decodeBytes_opcode i b1 b2 wf ((bytes_eq_take_iff b1 b2 _).1 operand)

/-! ### Decoding an encoding (R70) -/

theorem eq_take_getD_append (bs rest : List Byte) (h : bs.length ≤ 2) :
    bs = [(bs ++ rest).getD 0 0, (bs ++ rest).getD 1 0].take bs.length := by
  match bs, h with
  | [], _ => rfl
  | [_], _ => rfl
  | [_, _], _ => rfl

theorem decode_cons {op : Byte} {tail : List Byte} {i : Instr}
    (h : decodeBytes op (tail.getD 0 0) (tail.getD 1 0) = i) (enough : i.operand.length ≤ tail.length) :
    decode (op :: tail) = .ok (i, tail.drop i.operand.length) := by
  subst h
  exact if_pos enough

/-- Settles O1: whatever follows the encoding, its first three bytes spell the instruction. -/
theorem decodeOfEncode : Obligations.DecodeOfEncode := by
  intro i rest wf
  have count := operand_bytes_length i
  have operand := eq_take_getD_append i.operand.bytes rest (count ▸ operand_length_le_two i)
  rw [count] at operand
  rw [encode, List.cons_append, decode_cons ((decodeBytes_eq_iff _ _ _ i).2 ⟨wf, rfl, operand⟩),
    ← count, List.drop_left]
  rw [List.length_append, count]
  exact Nat.le_add_right _ _

/-- Settles O2: the decoded instruction is spelled by its bytes. -/
theorem encodeOfDecode : Obligations.EncodeOfDecode := by
  intro op b1 b2
  obtain ⟨wf, opcode, operand⟩ := spells_decodeBytes op b1 b2
  refine ⟨wf, ?_⟩
  rw [encode, opcode, operand, Instr.length, Nat.add_comm, List.take_succ_cons]

/-! ### UnknownOpcodes (R75, R201) -/

theorem mem_unknownBytes_iff (op b1 b2 : Byte) :
    op ∈ unknownBytes ↔ decodeBytes op b1 b2 = .unknown op := by
  rw [decodeBytes_eq_iff]
  exact ⟨fun h => ⟨List.contains_iff_mem.2 h, rfl, rfl⟩, fun h => List.contains_iff_mem.1 h.wf⟩

/-- Settles O3: an UnknownOpcode is spelled by the bytes of R75 alone, and it runs as the no-op of R201. -/
theorem unknownOpcodesAreR75 : Obligations.UnknownOpcodesAreR75 :=
  ⟨rfl, by decide, fun op b1 b2 =>
    ⟨mem_unknownBytes_iff op b1 b2, rfl, rfl, ⟨rfl, rfl⟩, fun s => exec_unknown op s⟩⟩

/-- Settles O4: each word is closed, so the decoder computes its row. -/
theorem sampleWordsDecode : Obligations.SampleWordsDecode := by
  unfold Obligations.SampleWordsDecode
  decide

end Sys2Proof.Safety
end

section
/-! The addressing-mode evaluator (40_addressing_modes.md): its addresses and the targets of branches and JMP as
numbers, when the index carries into the page, and which instructions pay for that. -/

namespace Sys2Proof.Safety

open Sys2Proof Sys2Proof.Machine

/-! ### Operand bytes (R116) -/

/-- Settles O7: the evaluator's address of a data mode is `effectiveAddress`, the cell that is read. -/
theorem operandValues : Obligations.OperandValues := by
  intro s v m ea
  refine ⟨rfl, rfl, fun h => ?_⟩
  obtain rfl : effectiveAddress s m = ea := Effective.address.inj h
  exact ⟨rfl, rfl⟩

/-! ### Addresses in page zero (R105, R106, R112) -/

theorem zext16_add_toNat (b index : Byte) :
    (zext16 (b + index)).toNat = (b.toNat + index.toNat) % 256 := by
  rw [zext16_toNat, BitVec.toNat_add]

theorem readWordZP_add_toNat (s : State) (b index : Byte) :
    (s.readWordZP (b + index)).toNat =
      (s.read (BitVec.ofNat 16 ((b.toNat + index.toNat + 1) % 256))).toNat * 256 +
        (s.read (BitVec.ofNat 16 ((b.toNat + index.toNat) % 256))).toNat := by
  rw [readWordZP_toNat, BitVec.toNat_add, Nat.mod_add_mod]

/-! ### Indexed addresses (R109, R110, R113) -/

theorem add_zext16_toNat (base : Word) (index : Byte) :
    (base + zext16 index).toNat = (base.toNat + index.toNat) % 65536 := by
  rw [BitVec.toNat_add, zext16_toNat]

/-! ### The pointer of JMP (R111) -/

/-- The page of one address joined with the low byte of another. -/
theorem page_or_low_eq_wordOf (a b : Word) : page a ||| (b &&& 0x00FF) = wordOf (hi8 a) (lo8 b) := by
  have low_lt := (lo8 b).isLt
  have same_page : page a = page (wordOf (hi8 a) (lo8 b)) := by
    rw [page_eq_iff, wordOf_toNat, hi8_toNat]
    omega
  have same_low : b &&& 0x00FF = wordOf (hi8 a) (lo8 b) &&& 0x00FF := by
    apply BitVec.eq_of_toNat_eq
    rw [BitVec.toNat_and, BitVec.toNat_and, wordOf_toNat, lo8_toNat]
    exact (Nat.and_two_pow_sub_one_eq_mod _ 8).trans
      (.trans (by omega) (Nat.and_two_pow_sub_one_eq_mod _ 8).symm)
  rw [same_page, same_low, page_or_low]

theorem wordOf_eq_ofNat (h l : Byte) : wordOf h l = BitVec.ofNat 16 (h.toNat * 256 + l.toNat) := by
  rw [← wordOf_toNat, BitVec.ofNat_toNat, BitVec.setWidth_eq]

theorem readWordJmpInd_toNat (s : State) (w : Word) :
    (s.readWordJmpInd w).toNat =
      (s.read (BitVec.ofNat 16 (w.toNat / 256 * 256 + (w.toNat + 1) % 256))).toNat * 256 +
        (s.read w).toNat := by
  have low : (lo8 (w + 1)).toNat = (w.toNat + 1) % 256 := by
    rw [lo8_toNat]
    bv_omega
  rw [State.readWordJmpInd, wordOf_toNat, page_or_low_eq_wordOf, wordOf_eq_ofNat, hi8_toNat, low]

theorem readWordJmpInd_wordOf_toNat (s : State) (h l : Byte) :
    (s.readWordJmpInd (wordOf h l)).toNat =
      (s.read (BitVec.ofNat 16 (h.toNat * 256 + (l.toNat + 1) % 256))).toNat * 256 +
        (s.read (BitVec.ofNat 16 (h.toNat * 256 + l.toNat))).toNat := by
  have pointer_high : (h.toNat * 256 + l.toNat) / 256 * 256 + (h.toNat * 256 + l.toNat + 1) % 256 =
      h.toNat * 256 + (l.toNat + 1) % 256 := by
    have := l.isLt
    omega
  rw [readWordJmpInd_toNat, wordOf_toNat, pointer_high, ← wordOf_eq_ofNat]

/-! ### Branch targets (R107) -/

theorem relativeTarget_toNat (s : State) (offset : Byte) :
    (relativeTarget s offset).toNat =
      (if offset.toNat < 128 then s.pc.toNat + offset.toNat else s.pc.toNat + 65280 + offset.toNat) %
        65536 := by
  rw [relativeTarget, BitVec.toNat_add, sext16_toNat, Nat.add_assoc, add_ite]

/-! ### The evaluator's answers -/

/-- Settles O5: each effective operand by definition of the evaluator, each address by its rule above. -/
theorem effectiveAddresses : Obligations.EffectiveAddresses := fun s b1 b2 =>
  ⟨rfl, rfl, rfl,
    ⟨_, rfl, zext16_toNat b1⟩,
    ⟨_, rfl, zext16_add_toNat b1 s.regX⟩,
    ⟨_, rfl, zext16_add_toNat b1 s.regY⟩,
    ⟨_, rfl, wordOf_toNat b2 b1⟩,
    ⟨_, rfl, readWordZP_add_toNat s b1 s.regX⟩,
    ⟨rfl, readWordJmpInd_wordOf_toNat s b2 b1⟩,
    ⟨rfl, relativeTarget_toNat s b1⟩⟩

/-- Settles O6: an indexed address is its base plus the index, and the bases and targets are word reads. -/
theorem indexedAndIndirectAddresses : Obligations.IndexedAndIndirectAddresses := fun s b1 b2 w =>
  have indirectIndexed := (add_zext16_toNat (s.readWordZP b1) s.regY).trans (by rw [readWordZP_toNat])
  ⟨fun _ _ => rfl, rfl, rfl, rfl, add_zext16_toNat w s.regX, add_zext16_toNat w s.regY, indirectIndexed,
    relativeTarget_toNat s b1, wordOf_toNat b2 b1, readWordJmpInd_toNat s w⟩

/-! ### Page crossing (R114, R115) -/

/-- The index carries into the page exactly when the low bytes sum to 256 or more; past 0xFFFF the page is then
0x00 instead of 0xFF. -/
theorem page_add_zext16_ne_iff (base : Word) (index : Byte) :
    page base ≠ page (base + zext16 index) ↔ 256 ≤ base.toNat % 256 + index.toNat := by
  have base_lt := base.isLt
  have index_lt := index.isLt
  rw [Ne, page_eq_iff, add_zext16_toNat]
  omega

theorem crossed_add_zext16 (base : Word) (index : Byte) :
    crossed base (base + zext16 index) = if 256 ≤ base.toNat % 256 + index.toNat then 1 else 0 := by
  simp only [crossed, ← page_add_zext16_ne_iff, ite_not]

/-- Settles O8, from R114's definition and the carry of the low-byte sum. -/
theorem pageCrossing : Obligations.PageCrossing := fun base index =>
  ⟨crossed_def _ _, crossed_add_zext16 base index⟩

theorem readStyle_of_pays {i : Instr} (pays : paysPageCross i = true) : readStyle i = true := by
  cases i with
  | lda | ldx | ldy | and | ora | eor | adc | sbc | cmp => rfl
  | _ => cases pays

/-- The forms of a read-style instruction without R74's `+` are the forms that have no index base. -/
theorem crossing_of_readStyle_of_not_pays {i : Instr} (s : State) (reads : readStyle i = true)
    (free : paysPageCross i = false) : (evaluate s i.operand).crossing = 0 := by
  cases i with
  | lda o | and o | ora o | eor o | adc o | sbc o | cmp o =>
    cases o with
    | absX | absY | indY => cases free
    | _ => rfl
  | ldx o =>
    cases o with
    | absY => cases free
    | _ => rfl
  | ldy o =>
    cases o with
    | absX => cases free
    | _ => rfl
  | bit o => cases o <;> rfl
  | nop => rfl
  | _ => cases reads

theorem pagePenalty_eq_of_readStyle (i : Instr) (s : State) :
    pagePenalty i s = if readStyle i then (evaluate s i.operand).crossing else 0 := by
  cases pays : paysPageCross i with
  | true => rw [pagePenalty, pays, readStyle_of_pays pays]
  | false =>
    rw [pagePenalty_of_not_pays i s pays]
    cases reads : readStyle i with
    | true => exact (crossing_of_readStyle_of_not_pays s reads pays).symm
    | false => rfl

/-- The 256 rows of the table are too many for the elaborator's recursion depth, so the kernel evaluates them. -/
theorem countP_paysPageCross :
    (List.range 256).countP (fun op => paysPageCross (decodeBytes (BitVec.ofNat 8 op) 0 0)) = 23 := by
  decide +kernel

/-- Settles O9: the penalty by the cases of R74's `+`, the crossings by definition, the count by evaluation. -/
theorem pagePenaltyIsForReadStyle : Obligations.PagePenaltyIsForReadStyle :=
  ⟨pagePenalty_eq_of_readStyle, fun _ _ _ => ⟨rfl, rfl, rfl⟩, countP_paysPageCross⟩

end Sys2Proof.Safety
end

section
/-! Loads and stores (41_load_store.md): the encoding and cycles that every instruction rule states, and one rule
each for loading a byte register and for storing to a cell. -/

namespace Sys2Proof.Safety

open Sys2Proof Sys2Proof.Machine

/-! ### Encoding and cycles of an instruction (R70, R213) -/

theorem encoded_of_length {i : Instr} {n : Nat} (length : i.length = n) : Encoded i i.opcode n := by
  obtain ⟨count, -, head, -⟩ := encoding_statement i
  exact ⟨head, count.trans length⟩

theorem costs_setPending {i : Instr} {s : State} {p : Nat} (penalty : pagePenalty i s = p) (t : State) :
    Costs (baseCycles i + p) (t.setPending (baseCycles i + pagePenalty i s + 0 - 1)) := by
  obtain ⟨-, -, -, two_le, -⟩ := encoding_statement i
  rw [Costs, State.setPending_pendingCycles, penalty]
  omega

/-! ### The two rules -/

theorem znFrom_of_regP_eq_setZN {t : State} {p r : Byte} (h : t.regP = setZN p r) : ZNFrom r t := by
  rw [ZNFrom, State.flag, State.flag, h, flag_setZN, flag_setZN]
  exact ⟨beq_zero r, getLsbD_seven r⟩

theorem regOf_loaded (s : State) (r : Reg) (v : Byte) (k : Nat) :
    regOf (((setReg s r v).putZN v).setPending k) r = v := by
  cases r <;> rfl

/-- An instruction that puts `v` into the register `r`, with Z and N from `v`. -/
theorem load_next {i : Instr} {s : State} {v : Byte} {n p : Nat} (r : Reg)
    (run : exec i s = conclude i s 0 ((setReg s r v).putZN v)) (length : i.length = n)
    (penalty : pagePenalty i s = p) :
    ∃ t, exec i s = .next t ∧ regOf t r = v ∧ ZNFrom (regOf t r) t ∧ Frame [r] [.Z, .N] [] s t ∧
      t.pc = s.pc ∧ Encoded i i.opcode n ∧ Costs (baseCycles i + p) t := by
  have confined := (confined_loadReg s r v v).setPending (baseCycles i + pagePenalty i s + 0 - 1)
  refine ⟨_, run, regOf_loaded s r v _, ?_, confined.toFrame, confined.pc rfl, encoded_of_length length,
    costs_setPending penalty _⟩
  rw [regOf_loaded]
  exact znFrom_of_regP_eq_setZN rfl

/-- An instruction that stores `v` to the cell `a`. -/
theorem store_next {i : Instr} {s : State} {a : Word} {v : Byte} {n p : Nat} (hm : s.mem.wf = true)
    (run : exec i s = conclude i s 0 (s.write a v)) (length : i.length = n)
    (penalty : pagePenalty i s = p) :
    ∃ t, exec i s = .next t ∧ t.read a = v ∧ Frame [] [] [a] s t ∧
      t.pc = s.pc ∧ Encoded i i.opcode n ∧ Costs (baseCycles i + p) t :=
  have confined := (confined_write s a v).setPending _
  ⟨_, run, State.read_write_same s hm a v, confined.toFrame, confined.pc rfl, encoded_of_length length,
    costs_setPending penalty _⟩

/-! ### Lengths of the operand forms: R74's columns -/

theorem aluOperand_length (o : AluOperand) :
    1 + o.source.operand.length = o.pick 2 2 2 3 3 3 2 2 := by cases o <;> rfl

theorem ldxOperand_length (o : LdxOperand) :
    1 + o.source.operand.length = o.pick 2 2 2 3 3 := by cases o <;> rfl

theorem ldyOperand_length (o : LdyOperand) :
    1 + o.source.operand.length = o.pick 2 2 2 3 3 := by cases o <;> rfl

theorem staOperand_length (o : StaOperand) :
    1 + (Operand.memory o.mem).length = o.pick 2 2 3 3 3 2 2 := by cases o <;> rfl

theorem stxOperand_length (o : StxOperand) :
    1 + (Operand.memory o.mem).length = o.pick 2 2 3 := by cases o <;> rfl

theorem styOperand_length (o : StyOperand) :
    1 + (Operand.memory o.mem).length = o.pick 2 2 3 := by cases o <;> rfl

/-! ### LDA, LDX, LDY and STA, STX, STY -/

/-- Settles O28: each load is `load_next` for its register, with the penalty of a read-style instruction. -/
theorem loadsReadTheirOperand : Obligations.LoadsReadTheirOperand :=
  ⟨fun o s => load_next .A (exec_lda o s) (aluOperand_length o) (pagePenalty_eq_of_readStyle (.lda o) s),
    fun o s => load_next .X (exec_ldx o s) (ldxOperand_length o) (pagePenalty_eq_of_readStyle (.ldx o) s),
    fun o s => load_next .Y (exec_ldy o s) (ldyOperand_length o) (pagePenalty_eq_of_readStyle (.ldy o) s)⟩

/-- Settles O29: each store is `store_next` at its effective address, in any region, without a page penalty. -/
theorem storesWriteTheirCell : Obligations.StoresWriteTheirCell :=
  ⟨fun o s hm => store_next hm (exec_sta o s) (staOperand_length o) (pagePenalty_of_not_pays (.sta o) s rfl),
    fun o s hm => store_next hm (exec_stx o s) (stxOperand_length o) (pagePenalty_of_not_pays (.stx o) s rfl),
    fun o s hm => store_next hm (exec_sty o s) (styOperand_length o) (pagePenalty_of_not_pays (.sty o) s rfl)⟩

end Sys2Proof.Safety
end

section
/-! Transfers and the stack instructions (42_transfer_stack.md): one rule for the six instructions that copy a
byte register with Z and N, one for the two pushes, and what a pull finds after a push. -/

namespace Sys2Proof.Safety

open Sys2Proof Sys2Proof.Machine

/-! ### The rules of the family -/

/-- What the statement of every instruction here ends with: frame, PC, encoding and cycles, once its effects
stay within the lists. -/
theorem frame_encoded_costs {i : Instr} {s t : State} {n : Nat} {regs : List Reg} {flags : List Flag}
    {cells : List Word} (confined : Confined regs flags cells false s t) (length : i.length = n)
    (free : paysPageCross i = false) :
    let u := t.setPending (baseCycles i + pagePenalty i s + 0 - 1)
    Frame regs flags cells s u ∧ u.pc = s.pc ∧ Encoded i i.opcode n ∧ Costs (baseCycles i) u :=
  ⟨(confined.setPending _).toFrame, confined.pc rfl, encoded_of_length length,
    costs_setPending (pagePenalty_of_not_pays i s free) t⟩

/-- An instruction that copies `v` to the register `r`: `load_next` without a page penalty. -/
theorem transfer_next {i : Instr} {s : State} {v : Byte} {n : Nat} (r : Reg)
    (run : exec i s = conclude i s 0 ((setReg s r v).putZN v)) (length : i.length = n)
    (free : paysPageCross i = false) :
    ∃ t, exec i s = .next t ∧ regOf t r = v ∧ ZNFrom v t ∧ Frame [r] [.Z, .N] [] s t ∧
      t.pc = s.pc ∧ Encoded i i.opcode n ∧ Costs (baseCycles i) t := by
  obtain ⟨t, next, loaded, zn, rest⟩ := load_next r run length (pagePenalty_of_not_pays i s free)
  exact ⟨t, next, loaded, loaded ▸ zn, rest⟩

/-- An instruction that pushes `v`. -/
theorem push_next {i : Instr} {s : State} {v : Byte} {n : Nat} (hm : s.mem.wf = true)
    (run : exec i s = conclude i s 0 (s.push v)) (length : i.length = n)
    (free : paysPageCross i = false) :
    ∃ t, exec i s = .next t ∧ t.read (stackAddr s.regS) = v ∧ t.regS = s.regS - 1 ∧
      Frame [.S] [] [stackAddr s.regS] s t ∧ t.pc = s.pc ∧ Encoded i i.opcode n ∧
      Costs (baseCycles i) t :=
  ⟨_, run, State.read_push_same s hm v, State.push_regS s v,
    frame_encoded_costs (confined_push s v) length free⟩

/-! ### A push and the pull after it -/

/-- Neither the cycle budget nor PC matters to the pull that follows a push. -/
theorem top_after_push (s : State) (hm : s.mem.wf = true) (v : Byte) (k : Nat) (a : Word) :
    (((s.push v).setPending k).setPc a).top = v :=
  State.top_push s hm v

theorem flag_pulledStatus_B (v : Byte) : flag (pulledStatus v) .B = false := flag_pulledStatus v .B

theorem flag_pulledStatus_U (v : Byte) : flag (pulledStatus v) .U = true := flag_pulledStatus v .U

theorem flag_pulledStatus_pushedStatus (p : Byte) {f : Flag} (hB : f ≠ .B) (hU : f ≠ .U) :
    flag (pulledStatus (pushedStatus p)) f = flag p f := by
  rw [flag_pulledStatus, if_neg hB, if_neg hU, flag_pushedStatus, if_neg (not_or.2 ⟨hB, hU⟩)]

theorem pha_then_pla (s : State) (hm : s.mem.wf = true) (a : Word) :
    ∃ t u, exec .pha s = .next t ∧ exec .pla (t.setPc a) = .next u ∧
      u.regA = s.regA ∧ u.regS = s.regS ∧ ZNFrom s.regA u := by
  refine ⟨_, _, exec_pha s, exec_pla _, top_after_push s hm s.regA _ a, regS_popped_push s s.regA, ?_⟩
  rw [top_after_push s hm]
  exact znFrom_of_regP_eq_setZN rfl

theorem php_then_plp (s : State) (hm : s.mem.wf = true) (a : Word) :
    ∃ t u, exec .php s = .next t ∧ exec .plp (t.setPc a) = .next u ∧
      u.regS = s.regS ∧ u.flag .B = false ∧ u.flag .U = true ∧
      ∀ f, f ≠ .B → f ≠ .U → u.flag f = s.flag f := by
  refine ⟨_, _, exec_php s, exec_plp _, regS_popped_push s (pushedStatus s.regP),
    flag_pulledStatus_B _, flag_pulledStatus_U _, fun f hB hU => ?_⟩
  rw [State.setPending_flag, State.setP_flag, top_after_push s hm]
  exact flag_pulledStatus_pushedStatus s.regP hB hU

/-! ### TAX, TAY, TXA, TYA, TSX, TXS, PHA, PHP, PLA, PLP -/

/-- Settles O30: five transfers are `transfer_next` for their registers; TXS writes S alone. -/
theorem transfersCopyARegister : Obligations.TransfersCopyARegister := fun s =>
  have txs : Confined [.S] [] [] false s (s.setS s.regX) := (Confined.refl s).setReg .S s.regX (by simp)
  ⟨transfer_next .X (exec_tax s) rfl rfl, transfer_next .Y (exec_tay s) rfl rfl,
    transfer_next .A (exec_txa s) rfl rfl, transfer_next .A (exec_tya s) rfl rfl,
    transfer_next .X (exec_tsx s) rfl rfl, ⟨_, exec_txs s, rfl, frame_encoded_costs txs rfl rfl⟩⟩

/-- Settles O31: both are `push_next`, PHP with the status it pushes. -/
theorem pushesStoreOnTheStack : Obligations.PushesStoreOnTheStack := fun s hm =>
  ⟨push_next hm (exec_pha s) rfl rfl, push_next hm (exec_php s) rfl rfl⟩

/-- Settles O32: each pull by its effect and its frame, each round trip by what the pull finds. -/
theorem pullsLoadFromTheStack : Obligations.PullsLoadFromTheStack := fun s =>
  ⟨⟨_, exec_pla s, rfl, rfl, znFrom_of_regP_eq_setZN rfl, frame_encoded_costs (confined_pla s) rfl rfl⟩,
    ⟨_, exec_plp s, rfl, rfl, flag_pulledStatus_B _, flag_pulledStatus_U _,
      frame_encoded_costs (confined_pulled s _ _) rfl rfl⟩,
    fun a hm => ⟨pha_then_pla s hm a, php_then_plp s hm a⟩⟩

end Sys2Proof.Safety
end

section
/-! Logical instructions and the bit test (43_logical_bit.md): one rule for the three instructions that combine A
with their operand, and the flags BIT leaves. -/

namespace Sys2Proof.Safety

open Sys2Proof Sys2Proof.Machine

/-! ### AND, ORA, EOR -/

/-- An instruction that leaves `r` in A, with Z and N from it, on any of the eight operand forms of R140 and
with the page penalty of a read-style instruction. -/
theorem loadA_next {i : Instr} {o : AluOperand} {s : State} {r : Byte}
    (run : exec i s = conclude i s 0 (s.loadA r)) (operand : i.operand = o.source.operand)
    (reads : readStyle i = true) :
    ∃ t, exec i s = .next t ∧ t.regA = r ∧ ZNFrom t.regA t ∧ Frame [.A] [.Z, .N] [] s t ∧
      t.pc = s.pc ∧ Encoded i i.opcode (o.pick 2 2 2 3 3 3 2 2) ∧
      Costs (baseCycles i + (evaluate s o.source.operand).crossing) t := by
  have length : i.length = o.pick 2 2 2 3 3 3 2 2 := by
    rw [Instr.length, operand, aluOperand_length]
  have penalty : pagePenalty i s = (evaluate s o.source.operand).crossing := by
    rw [pagePenalty_eq_of_readStyle, reads, if_pos rfl, operand]
  exact load_next .A run length penalty

/-- Settles O33: each of the three is `loadA_next` at its own combination of A and M. -/
theorem logicalInstructions : Obligations.LogicalInstructions := fun o s =>
  ⟨loadA_next (exec_and o s) rfl rfl, loadA_next (exec_ora o s) rfl rfl, loadA_next (exec_eor o s) rfl rfl⟩

/-! ### BIT -/

theorem bitOperand_length (o : BitOperand) :
    1 + (Operand.memory o.mem).length = o.pick 2 3 := by cases o <;> rfl

theorem flag_bitStatus_Z (p a m : Byte) : flag (bitStatus p a m) .Z = decide (a &&& m = 0) :=
  flag_bitStatus p a m .Z

theorem flag_bitStatus_N (p a m : Byte) : flag (bitStatus p a m) .N = m.getLsbD 7 :=
  flag_bitStatus p a m .N

theorem flag_bitStatus_V (p a m : Byte) : flag (bitStatus p a m) .V = m.getLsbD 6 :=
  flag_bitStatus p a m .V

/-- Settles O34: BIT replaces P by `bitStatus`, whose three flags are those of R143. -/
theorem bitTestsTheOperand : Obligations.BitTestsTheOperand := fun o s =>
  ⟨_, exec_bit o s, flag_bitStatus_Z _ _ _, flag_bitStatus_N _ _ _, flag_bitStatus_V _ _ _,
    frame_encoded_costs (confined_bit s _ _) (bitOperand_length o) rfl⟩

end Sys2Proof.Safety
end

section
/-! Arithmetic and compare (44_arithmetic_compare.md): one rule for ADC and SBC, one for the three compares, and
the sums of R150 to R153 as numbers. -/

namespace Sys2Proof.Safety

open Sys2Proof Sys2Proof.Machine

/-! ### The rules of the family -/

/-- `frame_encoded_costs` for an instruction that may pay a page penalty. -/
theorem frame_encoded_costs_of_penalty {i : Instr} {s t : State} {n p : Nat} {regs : List Reg}
    {flags : List Flag} {cells : List Word} (confined : Confined regs flags cells false s t)
    (length : i.length = n) (penalty : pagePenalty i s = p) :
    let u := t.setPending (baseCycles i + pagePenalty i s + 0 - 1)
    Frame regs flags cells s u ∧ u.pc = s.pc ∧ Encoded i i.opcode n ∧ Costs (baseCycles i + p) u :=
  ⟨(confined.setPending _).toFrame, confined.pc rfl, encoded_of_length length, costs_setPending penalty t⟩

/-- A, C and V of `t` are those of the sum `r`. -/
structure HoldsSum (r : Sum) (t : State) : Prop where
  result : t.regA = r.result
  carry : t.flag .C = r.carry
  overflow : t.flag .V = r.overflow

/-- An instruction that loads the sum `r`, with Z and N from its byte. -/
theorem loadSum_next {i : Instr} {s : State} {r : Sum} {n p : Nat}
    (run : exec i s = conclude i s 0 (s.loadSum r)) (length : i.length = n)
    (penalty : pagePenalty i s = p) :
    ∃ t, exec i s = .next t ∧ HoldsSum r t ∧ ZNFrom t.regA t ∧ Frame [.A] [.C, .Z, .V, .N] [] s t ∧
      t.pc = s.pc ∧ Encoded i i.opcode n ∧ Costs (baseCycles i + p) t :=
  ⟨_, run, ⟨rfl, State.loadSum_flag s r .C, State.loadSum_flag s r .V⟩, znFrom_of_regP_eq_setZN rfl,
    frame_encoded_costs_of_penalty (confined_loadSum s r) length penalty⟩

theorem adc_next (o : AluOperand) (s : State) :
    ∃ t, exec (.adc o) s = .next t ∧ HoldsSum (adcSum s.regP s.regA (sourceByte s o.source)) t ∧
      ZNFrom t.regA t ∧ Frame [.A] [.C, .Z, .V, .N] [] s t ∧ t.pc = s.pc ∧
      Encoded (.adc o) (o.pick 0x69 0x65 0x75 0x6D 0x7D 0x79 0x61 0x71) (o.pick 2 2 2 3 3 3 2 2) ∧
      Costs (o.pick 2 3 4 4 4 4 6 5 + (evaluate s o.source.operand).crossing) t :=
  loadSum_next (exec_adc o s) (aluOperand_length o) (pagePenalty_eq_of_readStyle (.adc o) s)

theorem sbc_next (o : AluOperand) (s : State) :
    ∃ t, exec (.sbc o) s = .next t ∧ HoldsSum (sbcSum s.regP s.regA (sourceByte s o.source)) t ∧
      ZNFrom t.regA t ∧ Frame [.A] [.C, .Z, .V, .N] [] s t ∧ t.pc = s.pc ∧
      Encoded (.sbc o) (o.pick 0xE9 0xE5 0xF5 0xED 0xFD 0xF9 0xE1 0xF1) (o.pick 2 2 2 3 3 3 2 2) ∧
      Costs (o.pick 2 3 4 4 4 4 6 5 + (evaluate s o.source.operand).crossing) t :=
  loadSum_next (exec_sbc o s) (aluOperand_length o) (pagePenalty_eq_of_readStyle (.sbc o) s)

/-! ### Binary mode -/

theorem adcSum_of_binary {p : Byte} (a m : Byte) (h : flag p .D = false) :
    adcSum p a m = adcBinary a m (flag p .C) := by rw [adcSum, h, if_neg Bool.false_ne_true]

theorem sbcSum_of_binary {p : Byte} (a m : Byte) (h : flag p .D = false) :
    sbcSum p a m = adcBinary a (~~~m) (flag p .C) := by
  rw [sbcSum, h, if_neg Bool.false_ne_true, sbcBinary]

theorem sum9_eq (a m : Byte) (c : Bool) : sum9 a m c = a.toNat + m.toNat + (if c then 1 else 0) := by
  cases c <;> rfl

theorem toNat_complement (m : Byte) : (~~~m).toNat = 255 - m.toNat := BitVec.toNat_not

/-- The borrow `1 - C`. -/
theorem borrow_le_one (c : Bool) : (if c then 0 else 1) ≤ 1 := by split <;> decide

/-- R152's sum, with the borrow `1 - C`. -/
theorem sum9_complement (a m : Byte) (c : Bool) :
    sum9 a (~~~m) c = a.toNat + (255 - m.toNat) + (1 - (if c then 0 else 1)) := by
  rw [sum9, toNat_complement]
  cases c <;> rfl

theorem sumOverflow_complement (a m : Byte) (s : Nat) :
    sumOverflow a (~~~m) s = (((a.toNat ^^^ s) &&& ((255 - m.toNat) ^^^ s) &&& 0x80) != 0) := by
  rw [sumOverflow, toNat_complement]

/-- Settles O35: `adc_next`, and in binary mode the three parts of `adcBinary` as numbers. -/
theorem adcAddsWithCarry : Obligations.AdcAddsWithCarry := fun o s => by
  obtain ⟨t, next, sum, rest⟩ := adc_next o s
  refine ⟨t, next, fun binary => ?_, rest⟩
  rw [adcSum_of_binary _ _ binary] at sum
  obtain ⟨result, carry, overflow⟩ := sum
  rw [result, carry, overflow]
  dsimp only [adcBinary]
  rw [sum9_eq]
  exact ⟨BitVec.toNat_ofNat _ _, rfl, rfl⟩

/-- R152's sum and R152's difference agree modulo 256, and in the ninth bit. -/
theorem complement_sum_eq_difference {a m borrow : Nat} (hm : m < 256) (hb : borrow ≤ 1) :
    (a + (255 - m) + (1 - borrow)) % 256 = (a + 256 - m - borrow) % 256 ∧
      (255 < a + (255 - m) + (1 - borrow) ↔ m + borrow ≤ a) := by
  omega

/-- Settles O36: `sbc_next`, and in binary mode the addition of the complement read as a difference. -/
theorem sbcSubtractsWithBorrow : Obligations.SbcSubtractsWithBorrow := fun o s => by
  obtain ⟨t, next, sum, rest⟩ := sbc_next o s
  refine ⟨t, next, fun binary => ?_, rest⟩
  rw [sbcSum_of_binary _ _ binary] at sum
  obtain ⟨result, carry, overflow⟩ := sum
  obtain ⟨difference, noBorrow⟩ := complement_sum_eq_difference (a := s.regA.toNat)
    (sourceByte s o.source).isLt (borrow_le_one (s.flag .C))
  rw [result, carry, overflow]
  dsimp only [adcBinary]
  rw [sumOverflow_complement, sum9_complement]
  exact ⟨(BitVec.toNat_ofNat _ _).trans difference, BitVec.toNat_ofNat _ _, decide_eq_decide.2 noBorrow,
    rfl, rfl⟩

/-! ### The signed reading (R157) -/

/-- V's formula by bit 7 alone: A and M agree in it and the sum does not. -/
theorem sumOverflow_iff (a m : Byte) (s : Nat) :
    sumOverflow a m s = true ↔
      a.toNat / 128 % 2 = m.toNat / 128 % 2 ∧ s / 128 % 2 ≠ a.toNat / 128 % 2 := by
  rw [sumOverflow, show 0x80 = 2 ^ 7 from rfl, Nat.and_two_pow, Nat.testBit_and, Nat.testBit_xor,
    Nat.testBit_xor]
  simp only [Nat.testBit_eq_decide_div_mod_eq, bne_iff_ne, ne_eq, mul_eq_zero, Bool.toNat_eq_zero,
    Bool.and_eq_false_imp, decide_eq_decide, bne_eq_false_iff_eq, Nat.reducePow, OfNat.ofNat_ne_zero,
    or_false, Classical.not_imp]
  omega

theorem toInt_eq (a : Byte) : a.toInt = if a.toNat < 128 then (a.toNat : Int) else a.toNat - 256 := by
  rw [BitVec.toInt_eq_toNat_cond]
  omega

theorem toInt_complement (m : Byte) : (~~~m).toInt = -1 - m.toInt := by
  have := m.isLt
  rw [toInt_eq, toInt_eq, toNat_complement]
  omega

/-- The complement of M stands for `-1 - M`, so `A + ~M + C` is `A - M - (1 - C)` in the signed reading too. -/
theorem signed_complement_sum (a m : Byte) (c : Bool) :
    a.toInt + (~~~m).toInt + (if c then 1 else 0) = a.toInt - m.toInt - (if c then 0 else 1) := by
  rw [toInt_complement]
  split <;> omega

theorem sumOverflow_eq_signed (a m : Byte) (c : Bool) :
    let sum := a.toInt + m.toInt + (if c then 1 else 0)
    sumOverflow a m (sum9 a m c) = !decide (-128 ≤ sum ∧ sum ≤ 127) := by
  intro sum
  have ha := a.isLt
  have hm := m.isLt
  rw [Bool.eq_iff_iff, sumOverflow_iff, sum9_eq, Bool.not_eq_true', decide_eq_false_iff_not]
  simp only [sum, toInt_eq]
  split <;> omega

/-- Settles O37: the formula of V is signed overflow of an addition, and SBC adds the complement of M. -/
theorem overflowIsSignedOverflow : Obligations.OverflowIsSignedOverflow := fun o s binary => by
  obtain ⟨t, nextAdc, adc, -⟩ := adc_next o s
  obtain ⟨u, nextSbc, sbc, -⟩ := sbc_next o s
  rw [adcSum_of_binary _ _ binary] at adc
  rw [sbcSum_of_binary _ _ binary] at sbc
  refine ⟨⟨t, nextAdc, adc.overflow.trans (sumOverflow_eq_signed _ _ _)⟩, u, nextSbc, ?_⟩
  rw [← signed_complement_sum]
  exact sbc.overflow.trans (sumOverflow_eq_signed _ _ _)

end Sys2Proof.Safety
end

section
/-! Decimal mode and the compares (44_arithmetic_compare.md sections 2 to 4): the digit algorithms of R151 and
R153, the BCD law R158 read off from them, and one rule for CMP, CPX and CPY. -/

namespace Sys2Proof.Safety

open Sys2Proof Sys2Proof.Machine

/-! ### The digit algorithms (R151, R153) -/

theorem adcSum_of_decimal {p : Byte} (a m : Byte) (h : flag p .D = true) :
    adcSum p a m = adcDecimal a m (flag p .C) := by rw [adcSum, h, if_pos rfl]

theorem sbcSum_of_decimal {p : Byte} (a m : Byte) (h : flag p .D = true) :
    sbcSum p a m = sbcDecimal a m (flag p .C) := by rw [sbcSum, h, if_pos rfl]

/-- Two digits, each cut to four bits, fit in a byte. -/
theorem toNat_ofNat_digits (hi lo : Nat) :
    (BitVec.ofNat 8 (hi % 16 * 16 + lo % 16)).toNat = hi % 16 * 16 + lo % 16 := by
  rw [BitVec.toNat_ofNat]
  omega

/-- The borrow out of the digit difference `x - y - b`. -/
def digitBorrow (x y b : Nat) : Nat := if x < y + b then 1 else 0

theorem digitBorrow_le_one (x y b : Nat) : digitBorrow x y b ≤ 1 := by
  unfold digitBorrow
  split <;> decide

/-- R153 decides its borrow on the integer difference. -/
theorem difference_neg_iff (x y b : Nat) : (x : Int) - y - b < 0 ↔ digitBorrow x y b ≠ 0 := by
  unfold digitBorrow
  split <;> omega

theorem ite_difference_neg (x y b : Nat) :
    (if (x : Int) - y - b < 0 then (1 : Int) else 0) = digitBorrow x y b := by
  unfold digitBorrow
  split <;> split <;> omega

/-- `subDigit` without negative numbers: 32 more is the same modulo 16. -/
theorem subDigit_emod {x y b : Nat} (hy : y < 16) (hb : b ≤ 1) :
    (subDigit ((x : Int) - y - b) % 16).toNat = (x + 32 - y - b - 6 * digitBorrow x y b) % 16 := by
  unfold subDigit digitBorrow
  split <;> split <;> omega

/-- R153 in natural numbers. -/
theorem sbcDecimal_eq (a m : Byte) (c : Bool) :
    let b := if c then 0 else 1
    let bl := digitBorrow (a.toNat % 16) (m.toNat % 16) b
    let bh := digitBorrow (a.toNat / 16) (m.toNat / 16) bl
    sbcDecimal a m c =
      { result := BitVec.ofNat 8 ((a.toNat / 16 + 32 - m.toNat / 16 - bl - 6 * bh) % 16 * 16 +
          (a.toNat % 16 + 32 - m.toNat % 16 - b - 6 * bl) % 16)
        carry := decide (bh = 0)
        overflow := sumOverflow a (~~~m) (sum9 a (~~~m) c) } := by
  intro b bl bh
  have hm := m.isLt
  have borrow_cast : (if c then (0 : Int) else 1) = (b : Nat) := by cases c <;> rfl
  unfold sbcDecimal
  simp only [borrow_cast, ite_difference_neg]
  rw [subDigit_emod (by omega) (borrow_le_one c), subDigit_emod (by omega) (digitBorrow_le_one _ _ _),
    ← decide_not]
  simp only [difference_neg_iff, not_not]
  rfl

/-- Settles O40: ADC runs `adcDecimal` as it stands, SBC runs `sbcDecimal`, which is `sbcDecimal_eq`. -/
theorem decimalDigitAlgorithms : Obligations.DecimalDigitAlgorithms := fun o s decimal => by
  obtain ⟨t, nextAdc, adc, znAdc, -⟩ := adc_next o s
  obtain ⟨u, nextSbc, sbc, znSbc, -⟩ := sbc_next o s
  rw [adcSum_of_decimal _ _ decimal] at adc
  rw [sbcSum_of_decimal _ _ decimal, sbcDecimal_eq] at sbc
  refine ⟨⟨t, nextAdc, ?_, znAdc⟩, u, nextSbc, ?_, znSbc⟩
  · rw [adc.result, adc.carry, adc.overflow]
    dsimp only [adcDecimal]
    rw [sum9_eq, Bool.toNat, cond_eq_ite]
    exact ⟨toNat_ofNat_digits _ _, rfl, rfl⟩
  · rw [sbc.result, sbc.carry, sbc.overflow, sumOverflow_complement, sum9_complement]
    exact ⟨toNat_ofNat_digits _ _, rfl, rfl⟩

/-! ### The BCD law (R158) -/

theorem bcdWellFormed_ofNat_digits {hi lo : Nat} (hhi : hi % 16 ≤ 9) (hlo : lo % 16 ≤ 9) :
    BcdWellFormed (BitVec.ofNat 8 (hi % 16 * 16 + lo % 16)) := by
  rw [BcdWellFormed, toNat_ofNat_digits]
  omega

theorem bcdValue_ofNat_digits (hi lo : Nat) :
    bcdValue (BitVec.ofNat 8 (hi % 16 * 16 + lo % 16)) = 10 * (hi % 16) + lo % 16 := by
  rw [bcdValue, toNat_ofNat_digits]
  omega

/-- The carry out of a digit sum. -/
def digitCarry (x : Nat) : Nat := if addDigit x > 0x0F then 1 else 0

theorem addDigit_gt_iff (x : Nat) : addDigit x > 0x0F ↔ digitCarry x = 1 := by
  unfold digitCarry
  split <;> omega

/-- A digit sum is a decimal digit and ten for the carry. -/
theorem digit_sum {x : Nat} (hx : x ≤ 19) :
    addDigit x % 16 ≤ 9 ∧ addDigit x % 16 + 10 * digitCarry x = x ∧ digitCarry x ≤ 1 := by
  unfold digitCarry addDigit
  split <;> split <;> omega

/-- A digit difference is a decimal digit less ten for the borrow. -/
theorem digit_difference {x y b : Nat} (hx : x ≤ 9) (hy : y ≤ 9) (hb : b ≤ 1) :
    let d := (x + 32 - y - b - 6 * digitBorrow x y b) % 16
    d ≤ 9 ∧ d + y + b = x + 10 * digitBorrow x y b ∧ digitBorrow x y b ≤ 1 := by
  unfold digitBorrow
  split <;> omega

/-- The digit equations, ten times the high one and the low one, add up to `sum = value + 100 * carry`. -/
theorem adcDecimal_bcd {a m : Byte} (c : Bool) (ha : BcdWellFormed a) (hm : BcdWellFormed m) :
    let r := adcDecimal a m c
    let sum := bcdValue a + bcdValue m + c.toNat
    BcdWellFormed r.result ∧ bcdValue r.result = sum % 100 ∧ r.carry = decide (100 ≤ sum) := by
  obtain ⟨aLow, aHigh⟩ := ha
  obtain ⟨mLow, mHigh⟩ := hm
  have hc := c.toNat_le
  obtain ⟨low_le, low, lowCarry_le⟩ := digit_sum (x := a.toNat % 16 + m.toNat % 16 + c.toNat) (by omega)
  obtain ⟨high_le, high, highCarry_le⟩ := digit_sum (x := a.toNat / 16 + m.toNat / 16 +
    digitCarry (a.toNat % 16 + m.toNat % 16 + c.toNat)) (by omega)
  refine ⟨bcdWellFormed_ofNat_digits high_le low_le, (bcdValue_ofNat_digits _ _).trans ?_,
    decide_eq_decide.2 ((addDigit_gt_iff _).trans ?_)⟩
  all_goals
    rw [bcdValue, bcdValue, ← digitCarry]
    omega

/-- The digit equations add up to `value + sub = bcdValue a + 100 * borrow`. -/
theorem sbcDecimal_bcd {a m : Byte} (c : Bool) (ha : BcdWellFormed a) (hm : BcdWellFormed m) :
    let r := sbcDecimal a m c
    let sub := bcdValue m + (if c then 0 else 1)
    BcdWellFormed r.result ∧ bcdValue r.result = (bcdValue a + 100 - sub) % 100 ∧
      r.carry = decide (sub ≤ bcdValue a) := by
  obtain ⟨aLow, aHigh⟩ := ha
  obtain ⟨mLow, mHigh⟩ := hm
  obtain ⟨low_le, low, lowBorrow_le⟩ := digit_difference aLow mLow (borrow_le_one c)
  obtain ⟨high_le, high, highBorrow_le⟩ := digit_difference aHigh mHigh lowBorrow_le
  rw [sbcDecimal_eq]
  refine ⟨bcdWellFormed_ofNat_digits high_le low_le, (bcdValue_ofNat_digits _ _).trans ?_,
    decide_eq_decide.2 ?_⟩
  all_goals
    rw [bcdValue, bcdValue]
    omega

/-- Settles O38: in decimal mode ADC loads `adcDecimal`, which obeys the law by `adcDecimal_bcd`. -/
theorem adcObeysTheBcdLaw : Obligations.AdcObeysTheBcdLaw := fun o s decimal ha hm => by
  obtain ⟨t, next, sum, zn, -⟩ := adc_next o s
  rw [adcSum_of_decimal _ _ decimal] at sum
  refine ⟨t, next, ?_, zn⟩
  rw [sum.result, sum.carry, ← Bool.cond_eq_ite]
  exact adcDecimal_bcd _ ha hm

/-- Settles O39: in decimal mode SBC loads `sbcDecimal`, which obeys the law by `sbcDecimal_bcd`. -/
theorem sbcObeysTheBcdLaw : Obligations.SbcObeysTheBcdLaw := fun o s decimal ha hm => by
  obtain ⟨t, next, sum, zn, -⟩ := sbc_next o s
  rw [sbcSum_of_decimal _ _ decimal] at sum
  refine ⟨t, next, ?_, zn⟩
  rw [sum.result, sum.carry]
  exact sbcDecimal_bcd _ ha hm

/-! ### CMP, CPX, CPY -/

/-- Bit 7 of a difference modulo 256. -/
theorem getLsbD_seven_sub (r m : Byte) :
    (r - m).getLsbD 7 = decide (128 ≤ (r.toNat + 256 - m.toNat) % 256) := by
  have hm := m.isLt
  rw [getLsbD_seven, BitVec.toNat_sub, decide_eq_decide]
  omega

/-- An instruction that compares `r` with `m`: C, Z and N are those of the difference, nothing is stored. -/
theorem compare_next {i : Instr} {s : State} {r m : Byte} {n p : Nat}
    (run : exec i s = conclude i s 0 (s.setP (compareStatus s.regP r m))) (length : i.length = n)
    (penalty : pagePenalty i s = p) :
    ∃ t, exec i s = .next t ∧
      (t.flag .C = decide (m.toNat ≤ r.toNat) ∧ t.flag .Z = decide (r = m) ∧
        t.flag .N = decide (128 ≤ (r.toNat + 256 - m.toNat) % 256)) ∧
      Frame [] [.C, .Z, .N] [] s t ∧ t.pc = s.pc ∧ Encoded i i.opcode n ∧ Costs (baseCycles i + p) t :=
  ⟨_, run, ⟨flag_compareStatus s.regP r m .C, flag_compareStatus s.regP r m .Z,
      (flag_compareStatus s.regP r m .N).trans (getLsbD_seven_sub r m)⟩,
    frame_encoded_costs_of_penalty (confined_compare s r m) length penalty⟩

theorem cpOperand_length (o : CpOperand) :
    1 + o.source.operand.length = o.pick 2 2 3 := by cases o <;> rfl

/-- Settles O41: each of the three is `compare_next` for its register; CMP alone pays the page penalty. -/
theorem comparesSetTheirFlags : Obligations.ComparesSetTheirFlags :=
  ⟨fun o s => compare_next (exec_cmp o s) (aluOperand_length o) (pagePenalty_eq_of_readStyle (.cmp o) s),
    fun o s => compare_next (exec_cpx o s) (cpOperand_length o) (pagePenalty_of_not_pays (.cpx o) s rfl),
    fun o s => compare_next (exec_cpy o s) (cpOperand_length o) (pagePenalty_of_not_pays (.cpy o) s rfl)⟩

end Sys2Proof.Safety
end

section
/-! Increments, decrements, shifts and rotates (45_incdec_shift.md): one rule each for a counted cell, a counted
index register and a shift, the shifted bytes of R166 to R169 as numbers, and the nine-bit ring of the rotates. -/

namespace Sys2Proof.Safety

open Sys2Proof Sys2Proof.Machine

/-! ### INC, DEC, INX, DEX, INY, DEY -/

theorem toNat_add_one (b : Byte) : (b + 1).toNat = (b.toNat + 1) % 256 := BitVec.toNat_add b 1

theorem toNat_sub_one (b : Byte) : (b - 1).toNat = (b.toNat + 255) % 256 := by
  rw [BitVec.toNat_sub, Nat.add_comm]
  rfl

theorem rmwOperand_length (o : RmwOperand) :
    1 + (Operand.memory o.mem).length = o.pick 2 2 3 3 := by cases o <;> rfl

/-- An instruction that replaces the byte at `a` by `f` of it, with Z and N from the new byte. -/
theorem modify_next {i : Instr} {s : State} {a : Word} {f : Byte → Byte} {n : Nat} (hm : s.mem.wf = true)
    (run : exec i s = conclude i s 0 (s.modify a f)) (length : i.length = n)
    (free : paysPageCross i = false) :
    ∃ t, exec i s = .next t ∧ t.read a = f (s.read a) ∧ ZNFrom (t.read a) t ∧
      Frame [] [.Z, .N] [a] s t ∧ t.pc = s.pc ∧ Encoded i i.opcode n ∧ Costs (baseCycles i) t := by
  have stored : (s.modify a f).read a = f (s.read a) := State.modify_read_same s hm a f
  refine ⟨_, run, stored, ?_, frame_encoded_costs (confined_modify s a f) length free⟩
  rw [State.setPending_read, stored]
  exact znFrom_of_regP_eq_setZN rfl

/-- Settles O42: each of the two is `modify_next` at its effective address, without a page penalty. -/
theorem incAndDecModifyTheirCell : Obligations.IncAndDecModifyTheirCell := fun o s hm => by
  obtain ⟨t, nextInc, inc, restInc⟩ := modify_next hm (exec_inc o s) (rmwOperand_length o) rfl
  obtain ⟨u, nextDec, dec, restDec⟩ := modify_next hm (exec_dec o s) (rmwOperand_length o) rfl
  exact ⟨⟨t, nextInc, inc ▸ toNat_add_one _, restInc⟩, ⟨u, nextDec, dec ▸ toNat_sub_one _, restDec⟩⟩

/-- An instruction that puts `v`, whose number is `k`, into the index register `r`. -/
theorem count_next {i : Instr} {s : State} {v : Byte} {k n : Nat} (r : Reg) (value : v.toNat = k)
    (run : exec i s = conclude i s 0 ((setReg s r v).putZN v)) (length : i.length = n)
    (free : paysPageCross i = false) :
    ∃ t, exec i s = .next t ∧ (regOf t r).toNat = k ∧ ZNFrom (regOf t r) t ∧ Frame [r] [.Z, .N] [] s t ∧
      t.pc = s.pc ∧ Encoded i i.opcode n ∧ Costs (baseCycles i) t := by
  obtain ⟨t, next, loaded, rest⟩ := load_next r run length (pagePenalty_of_not_pays i s free)
  exact ⟨t, next, loaded ▸ value, rest⟩

/-- Settles O43: each of the four is `count_next` for its register, one more or one less. -/
theorem indexRegistersCountUpAndDown : Obligations.IndexRegistersCountUpAndDown := fun s =>
  ⟨count_next .X (toNat_add_one s.regX) (exec_inx s) rfl rfl,
    count_next .X (toNat_sub_one s.regX) (exec_dex s) rfl rfl,
    count_next .Y (toNat_add_one s.regY) (exec_iny s) rfl rfl,
    count_next .Y (toNat_sub_one s.regY) (exec_dey s) rfl rfl⟩

/-! ### The shifted bytes as numbers (R166 to R169) -/

theorem getLsbD_zero_eq_decide (v : Byte) : v.getLsbD 0 = decide (v.toNat % 2 = 1) :=
  Nat.testBit_zero v.toNat

theorem aslByte_result_toNat (v : Byte) : (aslByte v).result.toNat = v.toNat * 2 % 256 := by
  rw [aslByte, BitVec.toNat_shiftLeft, Nat.shiftLeft_eq]

theorem lsrByte_result_toNat (v : Byte) : (lsrByte v).result.toNat = v.toNat / 2 := by
  rw [lsrByte, BitVec.toNat_ushiftRight, Nat.shiftRight_eq_div_pow]

/-- ROL shifts the old C in below bit 0. -/
theorem rolByte_result (c : Bool) (v : Byte) : (rolByte c v).result = v.shiftConcat c := by
  ext i hi
  rw [BitVec.getElem_shiftConcat]
  split
  · next bottom => cases c <;> simp [rolByte, bottom]
  · next above => cases c <;> simp [rolByte, above]

theorem rolByte_result_toNat (c : Bool) (v : Byte) :
    (rolByte c v).result.toNat = v.toNat * 2 % 256 + (if c then 1 else 0) := by
  have carried : c.toNat = if c then 1 else 0 := by cases c <;> rfl
  rw [rolByte_result, BitVec.toNat_shiftConcat, Nat.shiftLeft_eq, carried]
  split <;> omega

/-- The old C lands in bit 7, above the seven bits that stay. -/
theorem rorByte_result_toNat (c : Bool) (v : Byte) :
    (rorByte c v).result.toNat = v.toNat / 2 + (if c then 128 else 0) := by
  have low : v.toNat / 2 < 2 ^ 7 := by have := v.isLt; omega
  have carried : (if c then 0x80 else 0x00 : Byte).toNat = c.toNat <<< 7 := by cases c <;> rfl
  rw [rorByte, BitVec.toNat_or, carried, BitVec.toNat_ushiftRight, Nat.shiftRight_eq_div_pow, Nat.or_comm,
    pow_one, ← Nat.shiftLeft_add_eq_or_of_lt low, Nat.add_comm]
  cases c <;> rfl

/-! ### ASL, LSR, ROL, ROR -/

theorem shiftOperand_length (o : ShiftOperand) :
    1 + o.target.operand.length = o.pick 1 2 2 3 3 := by cases o <;> rfl

/-- A shift leaves its result in A or in its cell, whatever it does to the cycle budget. -/
theorem wrote_shift (s : State) (hm : s.mem.wf = true) (o : ShiftOperand) (r : Shifted) (k : Nat) :
    Wrote s ((s.shift o.target r).setPending k) o.target r.result [.C, .Z, .N] := by
  have frame := ((confined_shift s o r).setPending k).toFrame
  cases o with
  | acc => exact ⟨rfl, frame⟩
  | zp _ | zpX _ | abs _ | absX _ => exact ⟨State.read_write_same s hm _ _, frame⟩

/-- An instruction that shifts its operand to `r`: the result as the number `v`, and `c` to C. -/
theorem shift_next {i : Instr} {o : ShiftOperand} {s : State} {r : Shifted} {v n : Nat} {c : Bool}
    (hm : s.mem.wf = true) (run : exec i s = conclude i s 0 (s.shift o.target r))
    (value : r.result.toNat = v) (out : r.out = c) (length : i.length = n)
    (free : paysPageCross i = false) :
    ∃ t q, exec i s = .next t ∧ Wrote s t o.target q [.C, .Z, .N] ∧ q.toNat = v ∧ t.flag .C = c ∧
      ZNFrom q t ∧ t.pc = s.pc ∧ Encoded i i.opcode n ∧ Costs (baseCycles i) t := by
  obtain ⟨-, rest⟩ := frame_encoded_costs (confined_shift s o r) length free
  exact ⟨_, r.result, run, wrote_shift s hm o r _, value, (State.shift_flag s o.target r .C).trans out,
    znFrom_of_regP_eq_setZN rfl, rest⟩

/-- Settles O44: each of the four is `shift_next` with its shifted byte, on A or on memory. -/
theorem shiftsAndRotates : Obligations.ShiftsAndRotates := fun o s hm =>
  have length := shiftOperand_length o
  let v := targetByte s o.target
  ⟨shift_next hm (exec_asl o s) (aslByte_result_toNat v) (getLsbD_seven v) length rfl,
    shift_next hm (exec_lsr o s) (lsrByte_result_toNat v) (getLsbD_zero_eq_decide v) length rfl,
    shift_next hm (exec_rol o s) (rolByte_result_toNat _ v) (getLsbD_seven v) length rfl,
    shift_next hm (exec_ror o s) (rorByte_result_toNat _ v) (getLsbD_zero_eq_decide v) length rfl⟩

/-! ### Rotations of a word of any width -/

theorem rotateLeft_zero {w : Nat} (x : BitVec w) : x.rotateLeft 0 = x :=
  BitVec.eq_of_getMsbD_eq fun i hi => by
    rw [BitVec.getMsbD_rotateLeft, Nat.zero_add, Nat.mod_eq_of_lt hi, decide_eq_true hi, Bool.true_and]

theorem rotateLeft_rotateLeft {w : Nat} (x : BitVec w) (m n : Nat) :
    (x.rotateLeft m).rotateLeft n = x.rotateLeft (m + n) := by
  refine BitVec.eq_of_getMsbD_eq fun i hi => ?_
  have inside : (n + i) % w < w := Nat.mod_lt _ (by omega)
  rw [BitVec.getMsbD_rotateLeft, BitVec.getMsbD_rotateLeft, BitVec.getMsbD_rotateLeft, decide_eq_true inside,
    Bool.true_and, Nat.add_mod_mod, Nat.add_assoc]

theorem rotateLeft_width {w : Nat} (x : BitVec w) : x.rotateLeft w = x := by
  rw [← BitVec.rotateLeft_mod_eq_rotateLeft, Nat.mod_self, rotateLeft_zero]

/-! ### The rotates on the accumulator -/

/-- ROR takes back from C the bit that ROL shifted out. -/
theorem rorByte_rolByte_result (c : Bool) (v : Byte) :
    (rorByte (rolByte c v).out (rolByte c v).result).result = v := by
  have hv := v.isLt
  have out : (rolByte c v).out = decide (128 ≤ v.toNat) := getLsbD_seven v
  apply BitVec.eq_of_toNat_eq
  rw [rorByte_result_toNat, rolByte_result_toNat, out]
  simp only [decide_eq_true_eq]
  split <;> split <;> omega

/-- ROR gives back to C the bit that ROL shifted in. -/
theorem rorByte_rolByte_out (c : Bool) (v : Byte) :
    (rorByte (rolByte c v).out (rolByte c v).result).out = c := by
  have bottom : (rolByte c v).result.getLsbD 0 = c := by
    rw [rolByte_result, BitVec.getLsbD_shiftConcat]
    rfl
  exact bottom

/-- C above A: the nine bits that a rotate on the accumulator turns round. -/
def carryRing (s : State) : BitVec 9 := BitVec.cons (s.flag .C) s.regA

theorem carryRing_inj {s t : State} (h : carryRing t = carryRing s) :
    t.regA = s.regA ∧ t.flag .C = s.flag .C := by
  have carry := congrArg BitVec.msb h
  have acc := congrArg (BitVec.setWidth 8) h
  rw [carryRing, carryRing, BitVec.msb_cons, BitVec.msb_cons] at carry
  rw [carryRing, carryRing, BitVec.setWidth_cons, BitVec.setWidth_cons] at acc
  exact ⟨acc, carry⟩

/-- ROL turns the nine bits by one place. -/
theorem cons_rolByte (c : Bool) (v : Byte) :
    BitVec.cons (rolByte c v).out (rolByte c v).result = (BitVec.cons c v).rotateLeft 1 := by
  rw [rolByte_result]
  ext i hi
  rw [BitVec.getElem_cons, BitVec.getElem_rotateLeft]
  by_cases bottom : i = 0
  · subst bottom
    simp [BitVec.getElem_shiftConcat, BitVec.getElem_cons]
  · by_cases top : i = 8
    · subst top
      simp [BitVec.getElem_cons, rolByte]
    · have below : i ≠ 9 := by omega
      simp [BitVec.getElem_shiftConcat, BitVec.getElem_cons, bottom, top, below]

/-- The state after ROL on the accumulator. -/
def rolAcc (s : State) : State :=
  (s.shift .acc (rolByte (s.flag .C) s.regA)).setPending (baseCycles (.rol .acc) - 1)

theorem exec_rol_acc (s : State) : exec (.rol .acc) s = .next (rolAcc s) := exec_rol .acc s

theorem flag_rolAcc_C (s : State) : (rolAcc s).flag .C = (rolByte (s.flag .C) s.regA).out :=
  State.shift_flag s .acc _ .C

theorem carryRing_rolAcc (s : State) : carryRing (rolAcc s) = (carryRing s).rotateLeft 1 := by
  rw [carryRing, carryRing, flag_rolAcc_C, ← cons_rolByte]
  rfl

theorem carryRing_iterate_rolAcc (s : State) (k : Nat) :
    carryRing (rolAcc^[k] s) = (carryRing s).rotateLeft k := by
  induction k with
  | zero => exact (rotateLeft_zero _).symm
  | succ k ih => rw [Function.iterate_succ_apply', carryRing_rolAcc, ih, rotateLeft_rotateLeft]

theorem rol_then_ror (s : State) :
    ∃ t u, exec (.rol .acc) s = .next t ∧ exec (.ror .acc) t = .next u ∧
      u.regA = s.regA ∧ u.flag .C = s.flag .C := by
  refine ⟨_, _, exec_rol_acc s, exec_ror .acc _, ?_, (State.shift_flag _ .acc _ .C).trans ?_⟩
  · rw [flag_rolAcc_C]
    exact rorByte_rolByte_result _ _
  · rw [flag_rolAcc_C]
    exact rorByte_rolByte_out _ _

theorem nine_rols (s : State) :
    ∃ t : Nat → State, t 0 = s ∧ (∀ k, k < 9 → exec (.rol .acc) (t k) = .next (t (k + 1))) ∧
      (t 9).regA = s.regA ∧ (t 9).flag .C = s.flag .C := by
  refine ⟨fun k => rolAcc^[k] s, rfl, fun k _ => ?_, carryRing_inj ?_⟩
  · exact (exec_rol_acc _).trans (congrArg _ (Function.iterate_succ_apply' rolAcc k s).symm)
  · rw [carryRing_iterate_rolAcc, rotateLeft_width]

/-- Settles O45: ROR takes back what ROL shifted out, and nine places are once round the ring of C and A. -/
theorem rotatesGoRound : Obligations.RotatesGoRound := fun s => ⟨rol_then_ror s, nine_rols s⟩

end Sys2Proof.Safety
end

section
/-! Branches, jumps and calls (46_branch_jump.md): one rule for every instruction that may overwrite PC, one for
the eight branches, and the return address that RTS finds after JSR. -/

namespace Sys2Proof.Safety

open Sys2Proof Sys2Proof.Machine

/-! ### The rules of the family -/

/-- Frame, encoding and cycles of an instruction that may overwrite PC, `extra` being the cycles its handler
returns. -/
theorem frame_encoded_costs_of_jump {i : Instr} {s t : State} {n : Nat} {regs : List Reg}
    {flags : List Flag} {cells : List Word} (confined : Confined regs flags cells true s t)
    (length : i.length = n) (free : paysPageCross i = false) (extra : Nat) :
    let u := t.setPending (baseCycles i + pagePenalty i s + extra - 1)
    Frame regs flags cells s u ∧ Encoded i i.opcode n ∧ Costs (baseCycles i + extra) u := by
  refine ⟨(confined.setPending _).toFrame, encoded_of_length length, ?_⟩
  obtain ⟨-, -, -, two_le, -⟩ := encoding_statement i
  rw [Costs, State.setPending_pendingCycles, pagePenalty_of_not_pays i s free]
  omega

/-- What a taken branch costs, in the terms of the page test (R107, D6). -/
theorem taken_cycles (pc target : Word) :
    2 + (1 + crossed pc target) = if target &&& 0xFF00 = pc &&& 0xFF00 then 3 else 4 := by
  rw [crossed_comm, crossed_def]
  split <;> rfl

/-- An instruction that branches under `cond`. -/
theorem branch_next {i : Instr} {cond : Bool} {offset : Byte} {s : State}
    (run : exec i s = branch i cond offset s) (length : i.length = 2) (base : baseCycles i = 2)
    (free : paysPageCross i = false) :
    ∃ t, exec i s = .next t ∧ Encoded i i.opcode 2 ∧ Frame [] [] [] s t ∧
      (cond = true → t.pc = relativeTarget s offset ∧
        Costs (if t.pc &&& 0xFF00 = s.pc &&& 0xFF00 then 3 else 4) t) ∧
      (cond = false → t.pc = s.pc ∧ Costs 2 t) := by
  cases cond with
  | true =>
    obtain ⟨frame, encoded, costs⟩ := frame_encoded_costs_of_jump
      ((Confined.refl s).setPc (relativeTarget s offset)) length free
      (1 + crossed s.pc (relativeTarget s offset))
    rw [base, taken_cycles] at costs
    exact ⟨_, run.trans (branch_taken i offset s), encoded, frame, fun _ => ⟨rfl, base ▸ costs⟩, nofun⟩
  | false =>
    obtain ⟨frame, encoded, costs⟩ := frame_encoded_costs_of_jump (.refl s) length free 0
    exact ⟨_, run.trans (branch_not_taken i offset s), encoded, frame, nofun, fun _ => ⟨rfl, base ▸ costs⟩⟩

/-! ### BCC, BCS, BEQ, BNE, BMI, BPL, BVC, BVS -/

/-- Settles O46: each of the eight is `branch_next` under its own condition. -/
theorem branchesFollowTheirCondition : Obligations.BranchesFollowTheirCondition := fun off s => by
  simp only [List.forall_mem_cons]
  exact ⟨branch_next (exec_bcc off s) rfl rfl rfl, branch_next (exec_bcs off s) rfl rfl rfl,
    branch_next (exec_beq off s) rfl rfl rfl, branch_next (exec_bne off s) rfl rfl rfl,
    branch_next (exec_bmi off s) rfl rfl rfl, branch_next (exec_bpl off s) rfl rfl rfl,
    branch_next (exec_bvc off s) rfl rfl rfl, branch_next (exec_bvs off s) rfl rfl rfl, nofun⟩

/-! ### JMP -/

theorem jmp_length (o : JmpOperand) : (Instr.jmp o).length = 3 := by cases o <;> rfl

/-- Settles O47: JMP writes PC alone, with the target of its form. -/
theorem jmpGoesToItsTarget : Obligations.JmpGoesToItsTarget := fun o s =>
  ⟨_, exec_jmp o s, fun _ abs => congrArg (jumpTarget s) abs, fun _ ind => congrArg (jumpTarget s) ind,
    frame_encoded_costs_of_jump ((Confined.refl s).setPc _) (jmp_length o) rfl 0⟩

/-! ### JSR, RTS -/

theorem pushWord_regS_eq_sub_two (s : State) (w : Word) : (s.pushWord w).regS = s.regS - 2 := by
  rw [State.pushWord_regS]
  bv_omega

theorem poppedWord_regS_eq_add_two (s : State) : s.poppedWord.regS = s.regS + 2 := by
  rw [State.poppedWord_regS]
  bv_omega

theorem topWord_eq_add_two (s : State) :
    s.topWord = wordOf (s.read (stackAddr (s.regS + 2))) (s.read (stackAddr (s.regS + 1))) := by
  rw [State.topWord_eq, ← State.poppedWord_regS, poppedWord_regS_eq_add_two]

/-- Neither the cycle budget nor PC matters to the return that follows a call. -/
theorem topWord_after_pushWord (s : State) (hm : s.mem.wf = true) (w target : Word) (k : Nat) (a : Word) :
    ((((s.pushWord w).setPc target).setPending k).setPc a).topWord = w :=
  State.topWord_pushWord s hm w

/-- The round-trip law of R182: the word pulled is the one pushed, one below the next instruction. -/
theorem jsr_then_rts (s : State) (hm : s.mem.wf = true) (target a : Word) :
    ∃ t u, exec (.jsr target) s = .next t ∧ exec .rts (t.setPc a) = .next u ∧
      u.pc = s.pc ∧ u.regS = s.regS := by
  refine ⟨_, _, exec_jsr target s, exec_rts _, ?_, ?_⟩
  · rw [State.setPending_pc, State.setPc_pc, topWord_after_pushWord s hm, BitVec.sub_add_cancel]
  · simp

/-- Settles O48: JSR by what `pushWord` stores, RTS by what `poppedWord` leaves and `topWord` reads. -/
theorem callAndReturn : Obligations.CallAndReturn := fun target s hm =>
  ⟨⟨_, exec_jsr target s, rfl, pushWord_regS_eq_sub_two s _, State.read_pushWord_high s hm _,
      State.read_pushWord_low s hm _, frame_encoded_costs_of_jump (confined_jsr s target) rfl rfl 0⟩,
    ⟨_, exec_rts s, congrArg (· + 1) (topWord_eq_add_two s), poppedWord_regS_eq_add_two s,
      frame_encoded_costs_of_jump (confined_rts s) rfl rfl 0⟩,
    jsr_then_rts s hm target⟩

end Sys2Proof.Safety
end

section
/-! The software trap and the return from it, the flag instructions and NOP (47_system_flags_nop.md): what BRK saves
and where it goes, what RTI finds there, and one rule for the seven instructions that write one flag. -/

namespace Sys2Proof.Safety

open Sys2Proof Sys2Proof.Machine

/-! ### What the trap saves (R190) -/

theorem enterTrap_regS_eq_sub_three (s : State) : s.enterTrap.regS = s.regS - 3 := by
  rw [State.enterTrap_regS]
  bv_omega

theorem read_enterTrap_high (s : State) (hm : s.mem.wf = true) :
    s.enterTrap.read (stackAddr s.regS) = hi8 (s.pc + 1) := by
  rw [State.enterTrap_read, State.read_pushTrapFrame_ne s _ (stackAddr_sub_two_ne s.regS).symm,
    State.read_pushWord_high s hm]

theorem read_enterTrap_low (s : State) (hm : s.mem.wf = true) :
    s.enterTrap.read (stackAddr (s.regS - 1)) = lo8 (s.pc + 1) := by
  rw [State.enterTrap_read, State.read_pushTrapFrame_ne s _ (stackAddr_sub_one_ne (s.regS - 1)).symm,
    State.read_pushWord_low s hm]

theorem read_enterTrap_status (s : State) (hm : s.mem.wf = true) :
    s.enterTrap.read (stackAddr (s.regS - 2)) = pushedStatus s.regP := by
  have third : s.regS - 2 = s.regS - 1 - 1 := by bv_omega
  rw [State.enterTrap_read, third, State.read_pushTrapFrame_status s hm]

/-! ### Where the trap goes -/

/-- The vector as it was before the pushes, which do not reach it. -/
theorem enterTrap_pc_eq (s : State) : s.enterTrap.pc = wordOf (s.read 0xFFFF) (s.read 0xFFFE) := by
  have high := State.read_pushTrapFrame_high s 0xFFFF (by decide)
  have low := State.read_pushTrapFrame_high s 0xFFFE (by decide)
  rw [State.enterTrap_pc, ← high, ← low]
  rfl

theorem flag_enterTrap_I (s : State) : s.enterTrap.flag .I = true := flag_setFlag s.regP .I true .I

/-- Settles O49: BRK takes the trap, whose effects are the lemmas above and whose frame is `confined_brk`. -/
theorem brkTakesTheTrap : Obligations.BrkTakesTheTrap := fun s hm =>
  ⟨_, exec_brk s, read_enterTrap_high s hm, read_enterTrap_low s hm, read_enterTrap_status s hm,
    enterTrap_regS_eq_sub_three s, flag_enterTrap_I s, enterTrap_pc_eq s,
    frame_encoded_costs_of_jump (confined_brk s) rfl rfl 0⟩

/-! ### The return from the trap (R191) -/

theorem leaveTrap_regS_eq_add_three (s : State) : s.leaveTrap.regS = s.regS + 3 := by
  rw [State.leaveTrap_regS]
  bv_omega

/-- The word pulled lies above the status byte. -/
theorem leaveTrap_pc_eq (s : State) :
    s.leaveTrap.pc = wordOf (s.read (stackAddr (s.regS + 3))) (s.read (stackAddr (s.regS + 2))) := by
  have high : s.regS + 1 + 2 = s.regS + 3 := by bv_omega
  have low : s.regS + 1 + 1 = s.regS + 2 := by bv_omega
  rw [State.leaveTrap_pc, topWord_eq_add_two, State.popped_regS, high, low]
  rfl

/-! ### BRK, then RTI -/

/-- Under R20 and R21 the pull takes from a pushed status just the two bits that the push added. -/
theorem pulledStatus_pushedStatus {p : Byte} (hB : flag p .B = false) (hU : flag p .U = true) :
    pulledStatus (pushedStatus p) = p := by
  refine status_ext _ _ fun f => ?_
  by_cases b : f = .B
  · rw [b, flag_pulledStatus_B, hB]
  by_cases u : f = .U
  · rw [u, flag_pulledStatus_U, hU]
  exact flag_pulledStatus_pushedStatus p b u

/-- The return reads the three cells of the trap; neither the cycle budget nor PC matters to it. -/
theorem leaveTrap_enterTrap (s : State) (hm : s.mem.wf = true) (k : Nat) (a : Word) :
    let u := ((s.enterTrap.setPending k).setPc a).leaveTrap
    u.pc = s.pc + 1 ∧ u.regP = pulledStatus (pushedStatus s.regP) ∧ u.regS = s.regS := by
  have regS : ((s.enterTrap.setPending k).setPc a).regS = s.regS - 3 := enterTrap_regS_eq_sub_three s
  have first : s.regS - 3 + 1 = s.regS - 2 := by bv_omega
  have second : s.regS - 3 + 2 = s.regS - 1 := by bv_omega
  refine ⟨?_, ?_, ?_⟩
  · rw [leaveTrap_pc_eq, regS, second, BitVec.sub_add_cancel, State.setPc_read, State.setPc_read,
      State.setPending_read, State.setPending_read, read_enterTrap_high s hm, read_enterTrap_low s hm,
      wordOf_hi8_lo8]
  · rw [State.leaveTrap_regP, State.top, regS, first, State.setPc_read, State.setPending_read,
      read_enterTrap_status s hm]
  · rw [leaveTrap_regS_eq_add_three, regS, BitVec.sub_add_cancel]

/-- The corner of R191. -/
theorem brk_then_rti (s : State) (a : Word) (hm : s.mem.wf = true) (hB : s.flag .B = false)
    (hU : s.flag .U = true) :
    ∃ t u, exec .brk s = .next t ∧ exec .rti (t.setPc a) = .next u ∧
      u.pc = s.pc + 1 ∧ u.regP = s.regP ∧ u.regS = s.regS := by
  obtain ⟨pc, status, sp⟩ := leaveTrap_enterTrap s hm (baseCycles .brk - 1) a
  exact ⟨_, _, exec_brk s, exec_rti _, pc, status.trans (pulledStatus_pushedStatus hB hU), sp⟩

/-- Settles O50: RTI by what `leaveTrap` pulls, and its corner by what it finds after `enterTrap`. -/
theorem rtiReturns : Obligations.RtiReturns := fun s =>
  ⟨⟨_, exec_rti s, rfl, leaveTrap_pc_eq s, leaveTrap_regS_eq_add_three s, flag_pulledStatus_B _,
      flag_pulledStatus_U _, frame_encoded_costs_of_jump ((confined_pulled s _ _).setPc _) rfl rfl 0⟩,
    brk_then_rti s⟩

/-! ### CLC, SEC, CLI, SEI, CLD, SED, CLV -/

/-- An instruction that writes the one flag `f`. -/
theorem putFlag_next {i : Instr} {s : State} {f : Flag} {b : Bool}
    (run : exec i s = conclude i s 0 (s.putFlag f b)) (length : i.length = 1)
    (free : paysPageCross i = false) :
    ∃ t, exec i s = .next t ∧ Encoded i i.opcode 1 ∧ t.flag f = b ∧ Frame [] [f] [] s t ∧ t.pc = s.pc ∧
      Costs (baseCycles i) t := by
  obtain ⟨frame, pc, encoded, costs⟩ := frame_encoded_costs (confined_putFlag s f b) length free
  refine ⟨_, run, encoded, ?_, frame, pc, costs⟩
  exact (flag_setFlag s.regP f b f).trans (if_pos rfl)

/-- Settles O51: each of the seven is `putFlag_next` at its flag and value. -/
theorem flagInstructions : Obligations.FlagInstructions := fun s => by
  simp only [List.forall_mem_cons]
  exact ⟨putFlag_next (exec_clc s) rfl rfl, putFlag_next (exec_sec s) rfl rfl,
    putFlag_next (exec_cli s) rfl rfl, putFlag_next (exec_sei s) rfl rfl,
    putFlag_next (exec_cld s) rfl rfl, putFlag_next (exec_sed s) rfl rfl,
    putFlag_next (exec_clv s) rfl rfl, nofun⟩

/-! ### NOP -/

/-- Settles O52: NOP concludes with the state it was given. -/
theorem nopDoesNothing : Obligations.NopDoesNothing := ⟨exec_nop, encoded_of_length rfl⟩

end Sys2Proof.Safety
end

section
/-! The clock (50_clock_and_step.md): which instruction a tick in READY runs, the reset sequence and the idle tick,
what every tick has in common, what an instruction costs and how long it lasts, and runs from a launch state. -/

namespace Sys2Proof.Safety

open Sys2Proof Sys2Proof.Machine

/-! ### The instruction a tick runs (R212) -/

/-- A tick in READY runs the instruction at PC, with PC past its bytes. -/
theorem step_of_fetchInstr {s : State} {i : Instr} (ready : Ready s) (fetch : fetchInstr s = i) :
    step s = exec i (s.pastInstr i) := by
  obtain ⟨done, pending⟩ := ready
  rw [step_of_ready s pending, State.afterReset_of_done s done, fetchStep, fetch]

/-- Three bytes are enough for any instruction. -/
theorem decode_three (op b1 b2 : Byte) :
    decode [op, b1, b2] =
      .ok (decodeBytes op b1 b2, [b1, b2].drop (decodeBytes op b1 b2).operand.length) :=
  decode_cons rfl (operand_length_le_two _)

/-- Settles O15: the decoder finds in the three bytes at PC what the fetch finds there. -/
theorem tickRunsTheDecodedInstruction : Obligations.TickRunsTheDecodedInstruction := by
  intro s i rest ready _ decoded
  rw [decode_three] at decoded
  injection decoded with pair
  injection pair with fetch
  exact step_of_fetchInstr ready fetch

/-- At most two bytes, read cell by cell. -/
theorem eq_take_of_getElem? {bs : List Byte} {cell : Nat → Byte} (short : bs.length ≤ 2)
    (cells : ∀ k b, bs[k]? = some b → cell k = b) : bs = [cell 0, cell 1].take bs.length := by
  match bs, short with
  | [], _ => rfl
  | [b], _ => rw [cells 0 b rfl]; rfl
  | [b, c], _ => rw [cells 0 b rfl, cells 1 c rfl]; rfl

/-- The bytes of a well-formed instruction, standing at PC, spell it there. -/
theorem fetchInstr_of_encode {s : State} {i : Instr} (wf : i.wf = true)
    (stands : ∀ (k : Nat) (b : Byte), (encode i)[k]? = some b → s.read (s.pc + BitVec.ofNat 16 k) = b) :
    fetchInstr s = i := by
  have opcode : s.read s.pc = i.opcode := by simpa using stands 0 i.opcode rfl
  have count := operand_bytes_length i
  have operand := eq_take_of_getElem? (bs := i.operand.bytes)
    (cell := fun k => s.read (s.pc + BitVec.ofNat 16 (k + 1)))
    (count ▸ operand_length_le_two i) (fun k b hb => stands (k + 1) b hb)
  rw [count] at operand
  exact (decodeBytes_eq_iff _ _ _ i).2 ⟨wf, opcode.symm, operand⟩

/-- Settles O16: three bytes spell one instruction, so the one encoded at PC is the one fetched. -/
theorem encodedBytesRun : Obligations.EncodedBytesRun := by
  intro s i ready wf stands
  obtain ⟨length, -⟩ := encoding_statement i
  rw [length]
  exact step_of_fetchInstr ready (fetchInstr_of_encode wf stands)

/-! ### The reset sequence and the idle tick (R210, R211, R251) -/

/-- The reset sequence is part of the tick that performs it. -/
theorem step_afterReset (s : State) : step s.afterReset = step s := by
  unfold step
  rw [State.afterReset_of_done s.afterReset s.afterReset_resetDone]

/-- Settles O17, the state written out being that of `resetSequence`. -/
theorem firstTickResets : Obligations.FirstTickResets := by
  intro s unreset
  rw [← step_afterReset s, State.afterReset_of_not_done s unreset]
  rfl

/-- Settles O18: no reset sequence comes before this idle step. -/
theorem idleTickOnlyCountsDown : Obligations.IdleTickOnlyCountsDown := by
  intro s done pending
  rw [step_of_pending s pending, State.afterReset_of_done s done]
  rfl

/-! ### What every tick has in common (R210, R201) -/

/-- An instruction leaves the reset latch and the notes, but for the one note of an UnknownOpcode. -/
theorem exec_latch_and_notes (i : Instr) (s : State) :
    ∃ t, exec i s = .next t ∧ t.resetDone = s.resetDone ∧
      (t.unknownNotes = s.unknownNotes ∨
        ∃ b, i = .unknown b ∧ t.unknownNotes = { addr := s.pc - 1, byte := b } :: s.unknownNotes) := by
  by_cases known : ∀ b, i ≠ .unknown b
  · obtain ⟨t, run, confined⟩ := exec_confined i s known
    exact ⟨t, run, confined.resetDone, .inl confined.unknownNotes⟩
  · obtain ⟨b, rfl⟩ : ∃ b, i = .unknown b := by simpa using known
    exact ⟨_, exec_unknown b s, rfl, .inr ⟨b, rfl, rfl⟩⟩

/-- An UnknownOpcode is fetched only where a byte of R75 stands. -/
theorem mem_unknownBytes_of_fetchInstr {s : State} {b : Byte} (fetch : fetchInstr s = .unknown b) :
    b ∈ unknownBytes := by
  obtain ⟨wf, -, -⟩ := (decodeBytes_eq_iff _ _ _ _).1 fetch
  exact List.contains_iff_mem.1 wf

/-- Settles O19: an idle tick always goes on, and a fetch tick runs an instruction, each of which does. -/
theorem tickIsTotal : Obligations.TickIsTotal := by
  intro s
  rcases Nat.eq_zero_or_pos s.pendingCycles with ready | pending
  · obtain ⟨t, run, latch, notes⟩ := exec_latch_and_notes (fetchInstr s.afterReset)
      (s.afterReset.pastInstr (fetchInstr s.afterReset))
    refine ⟨t, (step_of_ready s ready).trans run, latch.trans s.afterReset_resetDone, ?_⟩
    refine notes.imp (·.trans s.afterReset_unknownNotes) ?_
    rintro ⟨b, fetch, note⟩
    refine ⟨_, mem_unknownBytes_of_fetchInstr fetch, note.trans (congrArg _ ?_)⟩
    exact s.afterReset_unknownNotes
  · exact ⟨_, step_of_pending s pending, s.afterReset_resetDone, .inl s.afterReset_unknownNotes⟩

/-! ### What an instruction costs (R213) -/

/-- Settles O21: an instruction concludes with no cycles from its handler, or it is a branch, which returns them
when taken. -/
theorem cyclesOfEveryInstruction : Obligations.CyclesOfEveryInstruction := by
  intro i s t run
  obtain ⟨-, -, -, two_le, le_seven⟩ := encoding_statement i
  have costs (extra : Nat) (u : State) :
      Costs (baseCycles i + pagePenalty i s + extra)
        (u.setPending (baseCycles i + pagePenalty i s + extra - 1)) := by
    rw [Costs, State.setPending_pendingCycles]
    omega
  refine ⟨two_le, le_seven, ?_⟩
  rcases exec_shape i s with ⟨u, concludes⟩ | ⟨cond, offset, operand, -, -, branches⟩
  · obtain rfl := conclude_inv (concludes.symm.trans run)
    exact ⟨0, costs 0 u, fun taken => absurd rfl taken⟩
  · rcases branch_cases i cond offset s t (branches.symm.trans run) with ⟨-, rfl⟩ | ⟨-, rfl⟩
    · exact ⟨_, costs _ _, fun _ => ⟨offset, operand, rfl, rfl⟩⟩
    · exact ⟨0, costs 0 s, fun taken => absurd rfl taken⟩

/-! ### How long an instruction lasts (R213, R214) -/

theorem exec_pendingCycles_pos {i : Instr} {s t : State} (run : exec i s = .next t) :
    1 ≤ t.pendingCycles := by
  obtain ⟨two_le, -, extra, costs, -⟩ := cyclesOfEveryInstruction i s t run
  unfold Costs at costs
  omega

/-- Idle ticks count down and change nothing else. -/
theorem run_of_le_pendingCycles (k : Nat) : ∀ t : State, t.resetDone = true → k ≤ t.pendingCycles →
    core.run k t = .next (t.setPending (t.pendingCycles - k)) := by
  induction k with
  | zero => exact fun t _ _ => run_zero t
  | succ k ih =>
    intro t done enough
    have idle := idleTickOnlyCountsDown t done (Nat.zero_lt_of_lt enough)
    have rest := ih (t.setPending (t.pendingCycles - 1)) done (Nat.le_sub_one_of_lt enough)
    rw [State.setPending_pendingCycles, Nat.sub_sub, Nat.add_comm 1] at rest
    exact (run_succ idle k).trans rest

/-- Settles O20: the fetch tick leaves the cycles that the instruction costs, and the idle ticks count them down. -/
theorem instructionOccupiesItsTicks : Obligations.InstructionOccupiesItsTicks := by
  intro s ready
  have fetch := step_of_fetchInstr ready rfl
  obtain ⟨t, tick, done, -⟩ := tickIsTotal s
  have run := fetch.symm.trans tick
  exact ⟨t, tick, exec_pendingCycles_pos run, exec_pendingCycles_le run, fun k enough =>
    (run_succ tick k).trans (run_of_le_pendingCycles k t done enough)⟩

/-! ### Runs (R217, R31) -/

/-- The invariant holds along every run, and no run stops. -/
theorem Inv.run (k : Nat) : ∀ {s : State}, Inv s → ∃ t, core.run k s = .next t ∧ Inv t := by
  induction k with
  | zero => exact fun {s} inv => ⟨s, run_zero s, inv⟩
  | succ k ih =>
    intro s inv
    obtain ⟨u, tick, -⟩ := tickIsTotal s
    rw [run_succ tick]
    exact ih (tickKeepsInvariant s u inv tick)

/-- Power-on with any canonical memory meets the invariant. -/
theorem Inv.of_launch {initMem : Memory → Prop} {s : State} (launch : Launch initMem s) : Inv s := by
  obtain ⟨m, canonical, -, rfl⟩ := launch
  exact { resetMeetsInvariant with memory := canonical }

/-- Settles O25: a launch state meets the invariant, and so does the state after any number of ticks. -/
theorem everyRunIsSafe : Obligations.EveryRunIsSafe := by
  intro initMem s launch k
  have inv := Inv.of_launch launch
  refine ⟨fun j _ => ?_, fun t run => ?_⟩
  · obtain ⟨t, run, -⟩ := inv.run j
    exact ⟨t, run⟩
  · obtain ⟨u, run', invU⟩ := inv.run k
    obtain rfl : u = t := by simpa [run'] using run
    exact invU

end Sys2Proof.Safety
end

section
/-! What the host does to the block (70_reset_and_hazards.md R250 to R253, 80_host_interface.md R271 to R273):
power-on, the three answers of `load_rom`, what a load writes, and where execution starts after it. -/

namespace Sys2Proof.Safety

open Sys2Proof Sys2Proof.Machine

/-! ### Power-on (R250, R271) -/

/-- Settles O22: `State.reset` is the power-on state, whose memory lists no cell. -/
theorem powerOnState : Obligations.PowerOnState :=
  ⟨rfl, rfl, rfl, rfl, rfl, fun f => by cases f <;> rfl, rfl, rfl, rfl, fun _ => rfl, rfl, fun _ => rfl⟩

/-! ### When a load succeeds (R272, R273) -/

/-- `load_rom` fails as InvalidHexInput exactly where the string holds no image. -/
theorem loadRom_invalidHexInput_iff (text : String) (start : Word) (s : State) :
    loadRom text start s = .error .invalidHexInput ↔ parseImage text = none := by
  rcases loadRom_cases text start s with ⟨noImage, load⟩ | ⟨bytes, image, -, load⟩ | ⟨bytes, image, -, load⟩
  · exact iff_of_true load noImage
  · simp [load, image]
  · simp [load, image]

/-- Settles O53: exactly the strings that are no pairs of digits hold no image. -/
theorem loadRomRejectsBadHex : Obligations.LoadRomRejectsBadHex := by
  intro text start s
  rw [loadRom_invalidHexInput_iff]
  rcases parseImage_cases text with ⟨bad, noImage⟩ | ⟨good, bytes, image, -⟩
  · exact iff_of_true noImage bad
  · exact iff_of_false (by simp [image]) good

/-- Settles O58: the image has half as many bytes as there are digits, and its length decides. -/
theorem loadRomAcceptsDigitPairs : Obligations.LoadRomAcceptsDigitPairs := by
  intro text start s digits nonempty even hex
  rcases parseImage_cases text with ⟨bad, -⟩ | ⟨-, bytes, image, length, -⟩
  · rcases bad with empty | odd | ⟨c, hc, notHex⟩
    · exact absurd empty nonempty
    · exact absurd (even.symm.trans odd) Nat.zero_ne_one
    · exact absurd (hex c hc) notHex
  · have pairs : digits.length / 2 = bytes.length := by
      rw [show digits.length = 2 * bytes.length from length]
      omega
    rw [pairs]
    rcases loadRom_cases text start s with
      ⟨noImage, -⟩ | ⟨bytes', image', long, load⟩ | ⟨bytes', image', short, load⟩
    · simp [image] at noImage
    · obtain rfl : bytes = bytes' := Option.some.inj (image.symm.trans image')
      exact ⟨fun short => absurd long (Nat.not_lt.2 short), fun _ => load⟩
    · obtain rfl : bytes = bytes' := Option.some.inj (image.symm.trans image')
      exact ⟨fun _ => ⟨_, load⟩, fun long => absurd long (Nat.not_lt.2 short)⟩

/-! ### What a load writes (R272) -/

/-- The image in the ROM region and the start address in the reset vector. -/
def loaded (s : State) (bytes : List Byte) (start : Word) : State :=
  (s.writeBytes 0x8000 bytes).writeWord 0xFFFC start

/-- A load that succeeds, taken apart. -/
theorem eq_loaded_of_loadRom {text : String} {start : Word} {s s' : State}
    (load : loadRom text start s = .ok s') :
    ∃ bytes, parseImage text = some bytes ∧ bytes.length ≤ 32762 ∧ s' = loaded s bytes start := by
  rcases loadRom_cases text start s with ⟨-, h⟩ | ⟨bytes, -, -, h⟩ | ⟨bytes, image, short, h⟩
  · cases h.symm.trans load
  · cases h.symm.trans load
  · exact ⟨bytes, image, short, by injection h.symm.trans load with h; exact h.symm⟩

/-- Off the vector a load leaves what the bytes of the image alone leave. -/
theorem read_loaded_eq_read_writeBytes (s : State) (bytes : List Byte) (start : Word) {a : Word}
    (low : a ≠ 0xFFFC) (high : a ≠ 0xFFFD) :
    (loaded s bytes start).read a = (s.writeBytes 0x8000 bytes).read a :=
  (confined_writeWord _ _ start).cells a (by simpa using ⟨low, high⟩)

section

variable {s : State} {bytes : List Byte} (wf : s.mem.wf = true) (short : bytes.length ≤ 32762) (start : Word)

include wf short

/-- The image ends below the reset vector, and so below the end of memory. -/
theorem romImage_spec :
    (s.writeBytes 0x8000 bytes).mem.wf = true ∧
    { s.writeBytes 0x8000 bytes with mem := s.mem } = s ∧
    (∀ (k : Nat) (b : Byte), bytes[k]? = some b →
      (s.writeBytes 0x8000 bytes).read (BitVec.ofNat 16 (0x8000 + k)) = b) ∧
    ∀ c : Word, ¬ (0x8000 ≤ c.toNat ∧ c.toNat < 0x8000 + bytes.length) →
      (s.writeBytes 0x8000 bytes).read c = s.read c :=
  State.writeBytes_spec bytes s 0x8000 wf (by rw [show (0x8000 : Word).toNat = 32768 from rfl]; omega)

theorem loaded_mem_wf : (loaded s bytes start).mem.wf = true := by
  obtain ⟨image, -⟩ := romImage_spec wf short
  exact State.writeWord_mem_wf _ image _ _

/-- Nothing but memory is changed. -/
theorem loaded_with_mem : { loaded s bytes start with mem := s.mem } = s := by
  obtain ⟨-, others, -⟩ := romImage_spec wf short
  exact others

theorem loaded_resetDone : (loaded s bytes start).resetDone = s.resetDone := by
  have latch := congrArg State.resetDone (loaded_with_mem wf short start)
  exact latch

theorem loaded_pc : (loaded s bytes start).pc = s.pc := by
  have pc := congrArg State.pc (loaded_with_mem wf short start)
  exact pc

theorem readWord_loaded_resetVector : (loaded s bytes start).readWord 0xFFFC = start := by
  obtain ⟨image, -⟩ := romImage_spec wf short
  exact readWord_writeWord _ image _ _

theorem read_loaded_resetVector :
    (loaded s bytes start).read 0xFFFC = lo8 start ∧ (loaded s bytes start).read 0xFFFD = hi8 start := by
  obtain ⟨low, high⟩ := (eq_wordOf_iff _ _ _).1 (readWord_loaded_resetVector wf short start).symm
  exact ⟨low.symm, high.symm⟩

theorem read_loaded_image {k : Nat} {b : Byte} (stands : bytes[k]? = some b) :
    (loaded s bytes start).read (BitVec.ofNat 16 (0x8000 + k)) = b := by
  obtain ⟨-, -, cells, -⟩ := romImage_spec wf short
  obtain ⟨inImage, -⟩ := List.getElem?_eq_some_iff.1 stands
  rw [read_loaded_eq_read_writeBytes s bytes start (by bv_omega) (by bv_omega), cells k b stands]

theorem read_loaded_elsewhere {a : Word} (low : a ≠ 0xFFFC) (high : a ≠ 0xFFFD)
    (outside : ¬ (0x8000 ≤ a.toNat ∧ a.toNat < 0x8000 + bytes.length)) :
    (loaded s bytes start).read a = s.read a := by
  obtain ⟨-, -, -, others⟩ := romImage_spec wf short
  rw [read_loaded_eq_read_writeBytes s bytes start low high, others a outside]

end

/-- Settles O54: the bytes are those of the digit pairs, and the cells are those of `loaded`. -/
theorem loadRomWritesImageAndVector : Obligations.LoadRomWritesImageAndVector := by
  intro text start s s' wf load
  obtain ⟨bytes, image, short, rfl⟩ := eq_loaded_of_loadRom load
  obtain ⟨low, high⟩ := read_loaded_resetVector wf short start
  rcases parseImage_cases text with ⟨-, noImage⟩ | ⟨good, bytes', image', length, pairs⟩
  · simp [image] at noImage
  · obtain rfl : bytes = bytes' := Option.some.inj (image.symm.trans image')
    have nonempty := List.length_pos_iff.2 fun empty => good (.inl empty)
    exact ⟨bytes, image, by omega, short, ⟨length, pairs⟩, fun k b => read_loaded_image wf short start,
      low, high, fun a => read_loaded_elsewhere wf short start, loaded_with_mem wf short start,
      loaded_mem_wf wf short start⟩

/-! ### Where execution starts (R252, R253) -/

/-- Settles O55: the first tick reads the vector that the load wrote, and a later one does not read it. -/
theorem loadRomSetsTheFirstFetch : Obligations.LoadRomSetsTheFirstFetch := by
  intro text start s s' wf load
  obtain ⟨bytes, -, short, rfl⟩ := eq_loaded_of_loadRom load
  have latch := loaded_resetDone wf short start
  refine ⟨fun unreset => ?_, fun done => ⟨loaded_pc wf short start, ?_⟩⟩
  · have vector : (loaded s bytes start).resetSequence.pc = start :=
      readWord_loaded_resetVector wf short start
    rw [← step_afterReset, State.afterReset_of_not_done _ (latch.trans unreset)]
    exact congrArg (fun a => step ((loaded s bytes start).resetSequence.setPc a)) vector
  · exact State.afterReset_of_done _ (latch.trans done)

end Sys2Proof.Safety
end

section
/-! What the host sees of the block (80_host_interface.md R270, R275, R277, R278; 20_memory.md R47): the memory ports,
the region table, and the mapping of `get_disassembly_range`. -/

namespace Sys2Proof.Safety

open Sys2Proof Sys2Proof.Machine

/-! ### The memory ports (R270, R275) -/

/-- The cell at each place of a port that begins at `first`. -/
theorem getElem?_bytesFrom (s : State) (first n k : Nat) :
    (bytesFrom s (BitVec.ofNat 16 first) n)[k]? =
      if k < n then some (s.read (BitVec.ofNat 16 (first + k))) else none := by
  by_cases h : k < n <;> simp [bytesFrom, h, BitVec.ofNat_add]

/-! ### The region table (R47) -/

/-- The rows begin at `low`, each row next after the one before it, and end just below `high`. -/
def Tiles : Nat → List RegionRow → Nat → Prop
  | low, [], high => low = high
  | low, r :: rest, high => r.first.toNat = low ∧ low ≤ r.last.toNat ∧ Tiles (r.last.toNat + 1) rest high

theorem Tiles.le {rows : List RegionRow} : ∀ {low high : Nat}, Tiles low rows high → low ≤ high := by
  induction rows with
  | nil => exact fun h => Nat.le_of_eq h
  | cons r rest ih =>
    rintro low high ⟨-, nonempty, tiles⟩
    have := ih tiles
    omega

/-- Rows that follow each other hold an address of their range once, and no other. -/
theorem Tiles.countP_eq (a : Word) {rows : List RegionRow} : ∀ {low high : Nat}, Tiles low rows high →
    rows.countP (fun r => decide (r.first ≤ a ∧ a ≤ r.last)) =
      if low ≤ a.toNat ∧ a.toNat < high then 1 else 0 := by
  induction rows with
  | nil =>
    rintro low _ rfl
    rw [List.countP_nil, if_neg (by omega)]
  | cons r rest ih =>
    rintro _ high ⟨rfl, nonempty, tiles⟩
    have le := tiles.le
    rw [List.countP_cons, ih tiles]
    simp only [decide_eq_true_eq, BitVec.le_def]
    split_ifs <;> omega

theorem tiles_regionTable : Tiles 0 regionTable 65536 := by
  simp [regionTable, Tiles]

/-- Settles O56: each port is its cells in order, and the rows of the table follow each other from 0x0000 to
0xFFFF. -/
theorem observationPorts : Obligations.ObservationPorts := by
  refine ⟨fun s k => ⟨getElem?_bytesFrom s _ _ k, getElem?_bytesFrom s _ _ k, getElem?_bytesFrom s _ _ k⟩,
    fun a => ?_⟩
  rw [← List.countP_eq_length_filter, tiles_regionTable.countP_eq a, if_pos ⟨a.toNat.zero_le, a.isLt⟩]

/-! ### The walk (R277) -/

theorem getElem?_walk_zero (s : State) {n : Nat} (pos : 0 < n) (start : Word) :
    (walk s n start)[0]? = some (start, lineAt s start) := by
  cases n with
  | zero => exact absurd pos (Nat.lt_irrefl 0)
  | succ n => rfl

/-- Each step of the walk goes on after the instruction. -/
theorem walk_advances (s : State) (n : Nat) : ∀ (start : Word) (k : Nat) (d e : Word × String),
    (walk s n start)[k]? = some d → (walk s n start)[k + 1]? = some e →
    e.1 = d.1 + BitVec.ofNat 16 (instrAt s d.1).length := by
  induction n with
  | zero => exact fun _ _ _ _ => nofun
  | succ n ih =>
    intro start k d e hd he
    rw [walk_succ, List.getElem?_cons_succ] at he
    cases k with
    | succ k => exact ih _ k d e hd he
    | zero =>
      obtain rfl : (start, lineAt s start) = d := Option.some.inj hd
      have pos : 0 < n := by
        obtain ⟨pos, -⟩ := List.getElem?_eq_some_iff.1 he
        rwa [walk_length] at pos
      rw [getElem?_walk_zero s pos] at he
      obtain rfl := Option.some.inj he
      rfl

theorem line_of_mem_walk (s : State) (n : Nat) :
    ∀ (start : Word), ∀ e ∈ walk s n start, e.2 = lineAt s e.1 := by
  induction n with
  | zero => exact fun _ _ => nofun
  | succ n ih =>
    intro start e he
    rcases List.mem_cons.1 he with rfl | he
    · rfl
    · exact ih _ e he

/-! ### The mapping (R278) -/

/-- A line keeps its place if its address is mapped, and else goes last. -/
theorem map_fst_putLine (m : List (Word × String)) (e : Word × String) :
    (putLine m e).map Prod.fst =
      if e.1 ∈ m.map Prod.fst then m.map Prod.fst else m.map Prod.fst ++ [e.1] := by
  induction m with
  | nil => rfl
  | cons d rest ih =>
    by_cases same : d.1 = e.1
    · simp [putLine, same]
    · rw [putLine, if_neg same, List.map_cons, ih]
      simp only [List.map_cons, List.mem_cons, Ne.symm same, false_or]
      split <;> rfl

theorem mem_putLine {m : List (Word × String)} {e d : Word × String} (h : d ∈ putLine m e) :
    d = e ∨ d ∈ m := by
  induction m with
  | nil => exact .inl (List.mem_singleton.1 h)
  | cons c rest ih =>
    rw [putLine] at h
    split at h
    · exact (List.mem_cons.1 h).imp_right (List.mem_cons_of_mem _)
    · rcases List.mem_cons.1 h with rfl | h
      · exact .inr List.mem_cons_self
      · exact (ih h).imp_right (List.mem_cons_of_mem _)

theorem nodup_putLine {m : List (Word × String)} (h : (m.map Prod.fst).Nodup) (e : Word × String) :
    ((putLine m e).map Prod.fst).Nodup := by
  rw [map_fst_putLine]
  split
  · exact h
  · next unmapped => exact List.nodup_append'.2 ⟨h, List.nodup_singleton _, List.disjoint_singleton.2 unmapped⟩

theorem mem_map_fst_putLine (m : List (Word × String)) (e : Word × String) (a : Word) :
    a ∈ (putLine m e).map Prod.fst ↔ a = e.1 ∨ a ∈ m.map Prod.fst := by
  rw [map_fst_putLine]
  split
  · next mapped => exact ⟨.inr, fun h => h.elim (· ▸ mapped) id⟩
  · rw [List.mem_append, List.mem_singleton, or_comm]

/-- Lines put one after the other into a mapping: its addresses stay distinct, they are those it had and those of the
lines, and every entry is one it had or one of the lines. -/
theorem foldl_putLine (lines : List (Word × String)) : ∀ m : List (Word × String), (m.map Prod.fst).Nodup →
    ((lines.foldl putLine m).map Prod.fst).Nodup ∧
    (∀ a, a ∈ (lines.foldl putLine m).map Prod.fst ↔ a ∈ lines.map Prod.fst ∨ a ∈ m.map Prod.fst) ∧
    ∀ d ∈ lines.foldl putLine m, d ∈ lines ∨ d ∈ m := by
  induction lines with
  | nil => exact fun m distinct => ⟨distinct, by simp, fun _ => .inr⟩
  | cons e rest ih =>
    intro m distinct
    obtain ⟨stillDistinct, addresses, entries⟩ := ih (putLine m e) (nodup_putLine distinct e)
    refine ⟨stillDistinct, fun a => ?_, fun d hd => ?_⟩
    · rw [List.foldl_cons, addresses, mem_map_fst_putLine, List.map_cons, List.mem_cons, or_left_comm, or_assoc]
    · rcases entries d hd with inRest | put
      · exact .inl (List.mem_cons_of_mem _ inRest)
      · exact (mem_putLine put).imp_left fun same => List.mem_cons.2 (.inl same)

/-- Settles O57: the walk by its recursion, and the mapping as the lines of the walk put into an empty one. -/
theorem disassemblyMapping : Obligations.DisassemblyMapping := by
  intro s start n
  obtain ⟨distinct, addresses, entries⟩ := foldl_putLine (walk s n start) [] List.nodup_nil
  refine ⟨walk_length s n start, fun pos => ?_, walk_advances s n start, distinct, fun a => ?_, fun e he => ?_⟩
  · rw [getElem?_walk_zero s pos]
    rfl
  · exact (addresses a).trans (or_iff_left List.not_mem_nil)
  · exact line_of_mem_walk s n start e ((entries e he).resolve_right List.not_mem_nil)

end Sys2Proof.Safety
end
